-- ==== Sys2Proof/Word.lean ====
section
/-! DEFINITION. The block's data types (00_scope R6, R9, R10): words, colours, cells. Every value is unsigned. -/

namespace Sys2Proof

/-- A command word, a `u32` (R10, R70). -/
abbrev Word := BitVec 32

/-- A `u8` (R10). -/
abbrev Byte := BitVec 8

/-- A colour, a `u24` packed as R, G, B from the top byte down (R10). -/
abbrev Colour := BitVec 24

/-- A target frame rate as `sink_fps` carries it, 6 bits (R22). -/
abbrev Fps := BitVec 6

/-- Rows of the grid, 0 the bottom and 15 the top (R6). -/
abbrev Row := Fin 16

/-- Columns of the grid (R6). -/
abbrev Col := Fin 14

/-- A cell index, 0 to 223 (R6, R10). -/
abbrev Cell := Fin 224

/-- One entry for each of the 224 cells, by linear index (R27 to R30). -/
abbrev Bank (α : Type) := Vector α 224

/-- A palette: exactly 16 stops (R35). -/
abbrev Palette := Vector Colour 16

end Sys2Proof
end

