-- ==== Sys2Proof/Syntax.lean ====
section
/-! DEFINITION. The commands of the block, one constructor per row of spec/opcode_table.json (30_encoding R77). -/

namespace Sys2Proof

/-- A command with its operands, as the formats E, N, I, A and P of R71 to R76 give them. -/
inductive Instr where
  | nop
  | initFire
  | initRain
  | initStar
  | initSweep
  | renderFire
  | renderRain
  | renderStar
  | renderSweep
  | presentFire
  | presentRain
  | presentStar
  | presentSweep
  | advanceFire
  | advanceRain
  | advanceStar
  | advanceSweep
  | updateFire
  | updateRain
  | updateStar
  | updateSweep
  /-- LDC: the colour IMM24 (R74). -/
  | ldc (v : Colour)
  | fill
  /-- SET: the ROW and COL fields (R75). -/
  | set (row col : BitVec 4)
  /-- GET: the ROW and COL fields (R75). -/
  | get (row col : BitVec 4)
  /-- INTERP.FIRE: the palette index PIDX (R76). -/
  | interpFire (i : Byte)
  /-- INTERP.HUE: the palette index PIDX (R76). -/
  | interpHue (i : Byte)
  deriving DecidableEq, Repr

end Sys2Proof
end

