-- ==== Sys2Proof/WellFormed.lean ====
section
/-! DEFINITION. Which commands the encoding admits: only SET and GET have an illegal operand (30_encoding R75). -/

namespace Sys2Proof

/-- A column field is legal iff it is below 14 (20_memory R52). -/
def legalCol (col : BitVec 4) : Bool := decide (col.toNat < 14)

/-- The operands are legal: COL of SET and GET is 0 to 13; every other field admits all its values (R72 to R76). -/
def Instr.wellFormed : Instr → Bool
  | .set _ col => legalCol col
  | .get _ col => legalCol col
  | .nop => true
  | .initFire => true
  | .initRain => true
  | .initStar => true
  | .initSweep => true
  | .renderFire => true
  | .renderRain => true
  | .renderStar => true
  | .renderSweep => true
  | .presentFire => true
  | .presentRain => true
  | .presentStar => true
  | .presentSweep => true
  | .advanceFire => true
  | .advanceRain => true
  | .advanceStar => true
  | .advanceSweep => true
  | .updateFire => true
  | .updateRain => true
  | .updateStar => true
  | .updateSweep => true
  | .ldc _ => true
  | .fill => true
  | .interpFire _ => true
  | .interpHue _ => true

end Sys2Proof
end

