-- ==== Sys2Proof/Decode.lean ====
section
/-! DEFINITION. The decoder of a command word, in the order of 30_encoding R78, and the encoder of R71 to R77. -/

namespace Sys2Proof

/-- The faults the decoder raises (R78, R79). -/
inductive DecodeFault where
  /-- OP is 0xB to 0xF (60_exceptions R254). -/
  | illegalOpcode
  /-- A reserved field holds a 1 bit (R255). -/
  | reservedBits
  /-- COL of SET or GET is 14 or 15 (R251). -/
  | coordRange
  deriving DecidableEq, Repr

/-- `w[31:28]` (R70). -/
def opField (w : Word) : BitVec 4 := w.extractLsb' 28 4

/-- `w[27:26]` (R71, R72). -/
def effField (w : Word) : BitVec 2 := w.extractLsb' 26 2

/-- `w[23:0]` (R74). -/
def immField (w : Word) : Colour := w.extractLsb' 0 24

/-- `w[7:4]` (R75). -/
def colField (w : Word) : BitVec 4 := w.extractLsb' 4 4

/-- `w[3:0]` (R75). -/
def rowField (w : Word) : BitVec 4 := w.extractLsb' 0 4

/-- `w[24]` (R76). -/
def palField (w : Word) : BitVec 1 := w.extractLsb' 24 1

/-- `w[7:0]` (R76). -/
def pidxField (w : Word) : Byte := w.extractLsb' 0 8

/-- A field the word's format marks reserved holds a 1 bit (R71 to R76; the lines of R78). -/
def reservedBitSet (w : Word) : Bool :=
  match (opField w).toNat with
  | 0x0 | 0x7 => w.extractLsb' 0 28 != 0
  | 0x1 | 0x2 | 0x3 | 0x4 | 0x5 => w.extractLsb' 0 26 != 0
  | 0x6 => w.extractLsb' 24 4 != 0
  | 0x8 | 0x9 => w.extractLsb' 8 20 != 0
  | 0xA => w.extractLsb' 25 3 != 0 || w.extractLsb' 8 16 != 0
  | _ => false

/-- The command of one of the five format-E rows, by EFF: 0 FIRE, 1 RAIN, 2 STAR, 3 SWEEP (R72). -/
def byEffect (eff : BitVec 2) (fire rain star sweep : Instr) : Instr :=
  match eff.toNat with
  | 0 => fire
  | 1 => rain
  | 2 => star
  | _ => sweep

/-- The row of the opcode map R77 that OP, EFF and PAL select; none for the reserved opcodes. -/
def selectCommand (w : Word) : Option Instr :=
  match (opField w).toNat with
  | 0x0 => some .nop
  | 0x1 => some (byEffect (effField w) .initFire .initRain .initStar .initSweep)
  | 0x2 => some (byEffect (effField w) .renderFire .renderRain .renderStar .renderSweep)
  | 0x3 => some (byEffect (effField w) .presentFire .presentRain .presentStar .presentSweep)
  | 0x4 => some (byEffect (effField w) .advanceFire .advanceRain .advanceStar .advanceSweep)
  | 0x5 => some (byEffect (effField w) .updateFire .updateRain .updateStar .updateSweep)
  | 0x6 => some (.ldc (immField w))
  | 0x7 => some .fill
  | 0x8 => some (.set (rowField w) (colField w))
  | 0x9 => some (.get (rowField w) (colField w))
  | 0xA => some (if palField w = 0 then .interpFire (pidxField w) else .interpHue (pidxField w))
  | _ => none

/-- The word is a SET or GET whose column is 14 or 15 (the last line of R78). -/
def badColumn (w : Word) : Bool :=
  (opField w == 0x8 || opField w == 0x9) && decide (14 ≤ (colField w).toNat)

/-- The decode of an accepted word: the first fault of R78 that applies, else the command R77 selects. -/
def decode (w : Word) : Except DecodeFault Instr :=
  match selectCommand w with
  | none => .error .illegalOpcode
  | some i =>
    if reservedBitSet w then .error .reservedBits
    else if badColumn w then .error .coordRange
    else .ok i

/-- A format-E word: OP, EFF, 26 reserved zeros (R71). -/
def encodeE (op : BitVec 4) (eff : BitVec 2) : Word := op ++ eff ++ 0#26

/-- A format-N word: OP, 28 reserved zeros (R73). -/
def encodeN (op : BitVec 4) : Word := op ++ 0#28

/-- A format-A word: OP, 20 reserved zeros, COL, ROW (R75). -/
def encodeA (op row col : BitVec 4) : Word := op ++ 0#20 ++ col ++ row

/-- A format-P word: OP, 3 reserved zeros, PAL, 16 reserved zeros, PIDX (R76). -/
def encodeP (pal : BitVec 1) (i : Byte) : Word := 0xA#4 ++ 0#3 ++ pal ++ 0#16 ++ i

/-- The word of a command, from the opcode map R77. -/
def encode : Instr → Word
  | .nop => encodeN 0x0
  | .initFire => encodeE 0x1 0
  | .initRain => encodeE 0x1 1
  | .initStar => encodeE 0x1 2
  | .initSweep => encodeE 0x1 3
  | .renderFire => encodeE 0x2 0
  | .renderRain => encodeE 0x2 1
  | .renderStar => encodeE 0x2 2
  | .renderSweep => encodeE 0x2 3
  | .presentFire => encodeE 0x3 0
  | .presentRain => encodeE 0x3 1
  | .presentStar => encodeE 0x3 2
  | .presentSweep => encodeE 0x3 3
  | .advanceFire => encodeE 0x4 0
  | .advanceRain => encodeE 0x4 1
  | .advanceStar => encodeE 0x4 2
  | .advanceSweep => encodeE 0x4 3
  | .updateFire => encodeE 0x5 0
  | .updateRain => encodeE 0x5 1
  | .updateStar => encodeE 0x5 2
  | .updateSweep => encodeE 0x5 3
  | .ldc v => 0x6#4 ++ 0#4 ++ v
  | .fill => encodeN 0x7
  | .set row col => encodeA 0x8 row col
  | .get row col => encodeA 0x9 row col
  | .interpFire i => encodeP 0 i
  | .interpHue i => encodeP 1 i

/-- What the decoder reads from an instruction of the opcode table whose bits are `w`: one 32-bit word, no byte
order (R70, 20_memory R55), the bits above `nbits` 0; none where the decoder refuses. -/
def decodeTableWord (nbits w : Nat) : Option Instr :=
  match decode (BitVec.ofNat 32 (w % 2 ^ nbits)) with
  | .ok i => some i
  | .error _ => none

end Sys2Proof
end

