-- ==== Sys2Proof/Config.lean ====
section
/-! DEFINITION. What is fixed when the block is built (70_reset R283): the normative values
of the named parameters of 00_scope R7, the form of the parameters of R7 and R8, the palettes, and the free values of the model (opaque:
nothing can evaluate them). -/

namespace Sys2Proof.Config

/-- FIRE_INIT (R7). -/
def fireInit : Byte := 0xF0
/-- FIRE_ADD (R7). -/
def fireAdd : Byte := 0x1F
/-- FIRE_SUB (R7). -/
def fireSub : Byte := 0x0F
/-- FIRE_SEED_LO, inclusive (R7). -/
def fireSeedLo : Byte := 0x20
/-- FIRE_SEED_HI, exclusive, may be 256 (R7). -/
def fireSeedHi : BitVec 9 := 0x90
/-- RAIN_HEAD_ODDS (R7). -/
def rainHeadOdds : BitVec 9 := 8
/-- RAIN_ATTEMPTS (R7). -/
def rainAttempts : Nat := 24
/-- RAIN_FADE (R7). -/
def rainFade : Byte := 48
/-- RAIN_HEAD_LEVEL (R7). -/
def rainHeadLevel : Byte := 255
/-- STAR_SPAWN_ODDS (R7). -/
def starSpawnOdds : BitVec 9 := 4
/-- STAR_LO, inclusive (R7). -/
def starLo : Byte := 0xA0
/-- STAR_HI, inclusive (R7). -/
def starHi : Byte := 0xFF
/-- STAR_FADE (R7). -/
def starFade : Byte := 2
/-- SWEEP_INIT (R7). -/
def sweepInit : Byte := 0
/-- SWEEP_STEP (R7). -/
def sweepStep : Byte := 1
/-- FPS_FIRE (R7, R109). -/
def fpsFire : Fps := 30
/-- FPS_RAIN (R7, R109). -/
def fpsRain : Fps := 10
/-- FPS_STAR (R7, R109). -/
def fpsStar : Fps := 60
/-- FPS_SWEEP (R7, R109). -/
def fpsSweep : Fps := 2

/-- The parameters of R7 and R8, each an argument of the definitions that use it (93_implementation_defined U19);
Machine/Parameters.lean gives those of this hardware. -/
structure Parameters where
  /-- FIRE_INIT, the initial heat index (R7). -/
  fireInit : Byte
  /-- FIRE_ADD, the saturating addend of the rise (R7). -/
  fireAdd : Byte
  /-- FIRE_SUB, the subtrahend of the rise (R7). -/
  fireSub : Byte
  /-- FIRE_SEED_LO, inclusive (R7). -/
  fireSeedLo : Byte
  /-- FIRE_SEED_HI, exclusive, may be 256 (R7). -/
  fireSeedHi : BitVec 9
  /-- RAIN_HEAD_ODDS, as the exclusive bound of its draw (R7). -/
  rainHeadOdds : BitVec 9
  /-- RAIN_ATTEMPTS (R7). -/
  rainAttempts : Nat
  /-- RAIN_FADE (R7). -/
  rainFade : Byte
  /-- RAIN_HEAD_LEVEL (R7). -/
  rainHeadLevel : Byte
  /-- STAR_SPAWN_ODDS, as the exclusive bound of its draw (R7). -/
  starSpawnOdds : BitVec 9
  /-- STAR_LO, inclusive (R7). -/
  starLo : Byte
  /-- STAR_HI, inclusive (R7). -/
  starHi : Byte
  /-- STAR_FADE (R7). -/
  starFade : Byte
  /-- SWEEP_INIT (R7). -/
  sweepInit : Byte
  /-- SWEEP_STEP (R7). -/
  sweepStep : Byte
  /-- FPS_FIRE (R7). -/
  fpsFire : Fps
  /-- FPS_RAIN (R7). -/
  fpsRain : Fps
  /-- FPS_STAR (R7). -/
  fpsStar : Fps
  /-- FPS_SWEEP (R7). -/
  fpsSweep : Fps
  /-- FIRE_PALETTE (41_interpolator R138). -/
  firePalette : Palette
  /-- HUE_PALETTE (R131). -/
  huePalette : Palette
  /-- PALETTE_WRAP: indices above 240 blend stop 15 toward stop 0 (R133). -/
  paletteWrap : Bool
  /-- BLEND (R132). -/
  blend : Colour → Colour → BitVec 4 → Colour
  /-- RAIN_COLOUR (44_rain R191). -/
  rainColour : Byte → Colour
  /-- CLK_HZ (42_effect_control R155). -/
  clkHz : Nat
  /-- CYCLES, which no rule depends on (R291). -/
  cycles : Instr → Nat

/-- The parameters are legal in the sense of R7's last paragraph (the widths of the fields give the other bounds). -/
def legal (p : Parameters) : Bool :=
  decide (p.fireSeedLo.toNat < p.fireSeedHi.toNat) && decide (p.fireSeedHi.toNat ≤ 256)
    && decide (p.starLo.toNat ≤ p.starHi.toNat) && decide (1 ≤ p.rainHeadOdds.toNat) && decide (p.rainHeadOdds.toNat < 256)
    && decide (1 ≤ p.starSpawnOdds.toNat) && decide (p.starSpawnOdds.toNat < 256) && decide (p.rainAttempts < 256)
    && [p.fpsFire, p.fpsRain, p.fpsStar, p.fpsSweep].all fun f => decide (1 ≤ f.toNat)

/-- FIRE_PALETTE, OPEN: 16 colours of which nothing may be assumed (R8, 41_interpolator R138). -/
opaque firePalette : Palette

/-- HUE_PALETTE, the 16 stops of 41_interpolator R131 (log entry 10). -/
def huePalette : Palette :=
  #v[0xFF0000, 0xD52A00, 0xAB5500, 0xAB7F00, 0xABAB00, 0x56D500, 0x00FF00, 0x00D52A,
     0x00AB55, 0x0056AA, 0x0000FF, 0x2A00D5, 0x5500AB, 0x7F0081, 0xAB0055, 0xD5002B]

/-- PALETTE_WRAP: indices above 240 blend stop 15 toward stop 0 (R8, R133, D20; log entry 10). -/
def paletteWrap : Bool := true

/-- CLK_HZ, OPEN: the clock frequency, used only by the pacing timer (R8). -/
opaque clkHz : Nat

/-- CYCLES, OPEN: the cycle count of each command; no rule depends on it (R8, R291; log entry 9). -/
opaque cycles : Instr → Nat

/-- The free answers of the random source: the byte it puts on `rng_data` for the draw with this number, where the
state's `rngIn` gives none. No law holds of it (R13, R23; log entry 2). -/
opaque rngData : Nat → Byte

/-- HEAD while `rst_n` = 0, which R41 leaves unspecified: the bit of a cell, after so many draws (U24; log entry 5). -/
opaque headInReset : Nat → Nat → Bool

end Sys2Proof.Config
end

