-- ==== Sys2Proof/Machine/Arith.lean ====
section
/-! DEFINITION. The arithmetic primitives of 00_scope R11 and the colour channels of R10. Each is computed exactly on
naturals and narrowed at the end. -/

namespace Sys2Proof.Machine

/-- `sat_add8(a, b) = min(a + b, 255)` (R11). -/
def satAdd8 (a b : Byte) : Byte := BitVec.ofNat 8 (min (a.toNat + b.toNat) 255)

/-- `sat_sub8(a, b) = max(a - b, 0)` (R11). -/
def satSub8 (a b : Byte) : Byte := BitVec.ofNat 8 (a.toNat - b.toNat)

/-- `wrap_add8(a, b) = (a + b) mod 256` (R11). -/
def wrapAdd8 (a b : Byte) : Byte := BitVec.ofNat 8 ((a.toNat + b.toNat) % 256)

/-- `scale8(a, f) = (a * (f + 1)) >> 8` (R11). -/
def scale8 (a f : Byte) : Byte := BitVec.ofNat 8 ((a.toNat * (f.toNat + 1)) / 256)

/-- The colour with these channels, red in bits 23..16, green in 15..8, blue in 7..0 (R10). -/
def rgb (r g b : Byte) : Colour := r ++ g ++ b

/-- The red channel (R10). -/
def red (c : Colour) : Byte := c.extractLsb' 16 8

/-- The green channel (R10). -/
def green (c : Colour) : Byte := c.extractLsb' 8 8

/-- The blue channel (R10). -/
def blue (c : Colour) : Byte := c.extractLsb' 0 8

end Sys2Proof.Machine
end

