-- ==== Sys2Proof/Machine/Operands.lean ====
section
/-! DEFINITION. Cell addressing (20_memory R50, R51), the traversal orders of the command rules, access to one entry of
an effect array, and the operand forms of 30_encoding R80. -/

namespace Sys2Proof.Machine

/-- `idx(r, c) = r + 16 * c` (R50). -/
def idx (r : Row) (c : Col) : Cell := ⟨r.val + 16 * c.val, by omega⟩

/-- `row(k) = k mod 16` (R51). -/
def rowOf (k : Cell) : Row := ⟨k.val % 16, by omega⟩

/-- `col(k) = k >> 4` (R51). -/
def colOf (k : Cell) : Col := ⟨k.val / 16, by omega⟩

/-- The rows 0 to 15 in that order. -/
@[irreducible] def rows : List Row := List.finRange 16

/-- The columns 0 to 13 in that order. -/
@[irreducible] def cols : List Col := List.finRange 14

/-- For each row but the top one, from 14 down to 0: the rows below the rows 15, 14, ..., 1. -/
@[irreducible] def rowsDown : List (Fin 15) := (List.finRange 15).reverse

/-- For each row but the top one, from 0 up to 14. -/
@[irreducible] def rowsUp : List (Fin 15) := List.finRange 15

/-- The cells in linear-index order 0 to 223. -/
@[irreducible] def linear : List Cell := List.finRange 224

/-- The cells in the order of the whole-buffer fills: row outer, column inner (R54). -/
def rowMajor : List Cell := rows.flatMap fun r => cols.map fun c => idx r c

/-- The entry of a cell. -/
def entry {α : Type} (b : Bank α) (k : Cell) : α := b[k.val]

/-- The array with the entry of one cell replaced. -/
def put {α : Type} (b : Bank α) (k : Cell) (v : α) : Bank α := b.set k.val v

/-- The array with the same value in every cell. -/
def fillBank {α : Type} (v : α) : Bank α := Vector.replicate 224 v

/-- The cell a draw from [0, 224) picks, by linear index (R194, R213, D17); only applied to values below 224. -/
def cellOfByte (v : Byte) : Cell := Fin.ofNat 224 v.toNat

/-- The cell index of the ROW and COL fields, `idx(w[3:0], w[7:4])`, which is `w[7:0]` (R75, R104). -/
def fieldIndex (row col : BitVec 4) : Nat := row.toNat + 16 * col.toNat

end Sys2Proof.Machine
end

