-- ==== Sys2Proof/Machine/Parameters.lean ====
section
/-! DEFINITION. The parameters of 00_scope R7 and R8 as this hardware has them: the normative values of R7, the decided ones
of R8 with the formulas of BLEND and RAIN_COLOUR, the open ones opaque. -/

namespace Sys2Proof.Machine

/-- One channel of BLEND: `scale8(a, 255 - 16f) + scale8(b, 16f)` (R132). -/
def blendChannel (a b : Byte) (f : BitVec 4) : Byte :=
  let f2 : Byte := BitVec.ofNat 8 (16 * f.toNat)
  let f1 : Byte := BitVec.ofNat 8 (255 - f2.toNat)
  scale8 a f1 + scale8 b f2

/-- BLEND(c1, c2, f), channel by channel (R132). -/
def blend (c1 c2 : Colour) (f : BitVec 4) : Colour :=
  rgb (blendChannel (red c1) (red c2) f) (blendChannel (green c1) (green c2) f) (blendChannel (blue c1) (blue c2) f)

/-- RAIN_COLOUR(I) (R191; log entry 10). -/
def rainColour (i : Byte) : Colour :=
  rgb (BitVec.ofNat 8 (i.toNat / 8)) (BitVec.ofNat 8 (3 * i.toNat / 4)) (BitVec.ofNat 8 (i.toNat / 8))

/-- The parameters of R7 and R8 of this hardware. -/
def hardware : Config.Parameters where
  fireInit := Config.fireInit
  fireAdd := Config.fireAdd
  fireSub := Config.fireSub
  fireSeedLo := Config.fireSeedLo
  fireSeedHi := Config.fireSeedHi
  rainHeadOdds := Config.rainHeadOdds
  rainAttempts := Config.rainAttempts
  rainFade := Config.rainFade
  rainHeadLevel := Config.rainHeadLevel
  starSpawnOdds := Config.starSpawnOdds
  starLo := Config.starLo
  starHi := Config.starHi
  starFade := Config.starFade
  sweepInit := Config.sweepInit
  sweepStep := Config.sweepStep
  fpsFire := Config.fpsFire
  fpsRain := Config.fpsRain
  fpsStar := Config.fpsStar
  fpsSweep := Config.fpsSweep
  firePalette := Config.firePalette
  huePalette := Config.huePalette
  paletteWrap := Config.paletteWrap
  blend := blend
  rainColour := rainColour
  clkHz := Config.clkHz
  cycles := Config.cycles

end Sys2Proof.Machine
end

