-- ==== Sys2Proof/Machine/State.lean ====
section
/-! DEFINITION. The state of the block as plain data (spec/10_state.md), its inputs, its event histories, and the
machine right after reset. -/

namespace Sys2Proof.Machine

/-- The fault codes of 60_exceptions R250. -/
inductive FaultCode where
  /-- Code 0, the value while STATUS.FAULT = 0. -/
  | none
  /-- Code 1 (R254). -/
  | illegalOpcode
  /-- Code 2 (R255). -/
  | reservedBits
  /-- Code 3 (R251). -/
  | coordRange
  /-- Code 4 (R252). -/
  | undefRead
  /-- Code 5 (R253). -/
  | rngRange
  deriving DecidableEq, Repr

/-- Why a step gives the machine no next state. The faults of the spec are not here: taking one is a next state (R260). -/
inductive Fault where
  /-- Raised by `step` when a draw waits for an answer that never comes and the host does nothing more: the stuck state
  of 60_exceptions R268. Safe: the spec gives the block no step there. -/
  | stuckOnRandomSource
  /-- Raised by `step` when a frame transfer waits for a sink that never takes the beat and the host does nothing more:
  the stuck state of R111 and R268. Safe: the spec gives the block no step there. -/
  | stuckOnDisplaySink
  deriving DecidableEq, Repr

/-- Why an instruction has no meaning. -/
inductive Refusal where
  /-- Raised by an arm of `exec` whose instruction has no meaning yet; no arm does. Safe. -/
  | notModelled (mnemonic : String)
  deriving DecidableEq, Repr

/-- What the host does at one rising edge of `clk` (10_state R20, R21; log entry 1). -/
inductive HostAct where
  /-- `cmd_valid` = 1 with this word on `cmd_data`. -/
  | offer (w : Word)
  /-- `cmd_valid` = 0. -/
  | idle
  /-- `rst_n` = 0. -/
  | resetLow
  deriving DecidableEq, Repr

/-- How the random source treats one request (R23, R268; log entry 2). -/
inductive RngReply where
  /-- `rng_ack` with this byte on `rng_data`. -/
  | ack (v : Byte)
  /-- `rng_ack` never rises. -/
  | never
  deriving DecidableEq, Repr

/-- How the display sink treats one frame transfer (R22, R268; log entry 3). -/
inductive SinkReply where
  /-- It takes all 224 beats. -/
  | takesFrame
  /-- It takes the beats before this one and never this one. -/
  | stopsAt (k : Cell)
  deriving DecidableEq, Repr

/-- The device handshake a command in progress waits on for ever (R38, R268). -/
inductive Wait where
  /-- `rng_req` = 0 and `sink_valid` = 0. -/
  | none
  /-- `rng_req` = 1 with these bounds. -/
  | draw (lo : Byte) (hi : BitVec 9)
  /-- `sink_valid` = 1 with this `sink_fps`, and the position of the transfer: the beat offered. -/
  | beat (fps : Fps) (k : Cell)
  deriving DecidableEq, Repr

/-- One completed draw (10_state R39). -/
structure Draw where
  lo : Byte
  hi : BitVec 9
  val : Byte
  deriving DecidableEq, Repr

/-- One presented frame: its rate and its 224 colours in linear-index order (R22, R39). -/
structure Frame where
  fps : Fps
  cells : Bank Colour
  deriving DecidableEq, Repr

/-- The frame buffer with its valid bits: cell k holds colour c and FB_VALID[k] = 1 iff (k, c) is listed (R33, R34,
D12: a cell never written holds no value). -/
abbrev Memory := List (Nat × Colour)

/-- The addresses rise strictly from `lo` on. -/
def Memory.risesFrom : Nat → Memory → Bool
  | _, [] => true
  | lo, (k, _) :: m => decide (lo ≤ k) && Memory.risesFrom (k + 1) m

/-- The one canonical form: strictly rising cell indices, each below 224 (20_memory R53). -/
def Memory.wf (m : Memory) : Bool := Memory.risesFrom 0 m && m.all fun e => decide (e.1 < 224)

/-- Everything the spec gives the block, what its environment will do, and what the model records. -/
structure State where
  /-- CREG (R24). -/
  creg : Colour
  /-- STATUS.BUSY (R25). -/
  busy : Bool
  /-- STATUS.FAULT (R25). -/
  fault : Bool
  /-- STATUS.FAULT_CODE (R25). -/
  faultCode : FaultCode
  /-- FAULT_CMD (R26). -/
  faultCmd : Word
  /-- The accepted command word of the command in progress, 0 otherwise (implied by R260; log entry 7). -/
  cmdWord : Word
  /-- `rst_n` was 0 at the last edge, so the reset sequence comes next (R20, R280). -/
  inReset : Bool
  /-- The handshake the command in progress is stalled on (R38). -/
  wait : Wait
  /-- PACE_CNT, none when idle (R38, 42_effect_control R155). Its width is OPEN (R40, 60_exceptions R266): DESIGN CHOICE,
  a number without bound (log entry 12). -/
  paceCnt : Option Nat
  /-- HEAT (R27). -/
  heat : Bank Byte
  /-- HEAD (R28). -/
  head : Bank Bool
  /-- RINT (R29). -/
  rint : Bank Byte
  /-- SINT (R30). -/
  sint : Bank Byte
  /-- SWEEP (R31). -/
  sweep : Byte
  /-- FB and FB_VALID (R33, R34). -/
  fb : Memory
  /-- Input: what the host does next, one entry a step; after the end it leaves the port idle (log entry 1). -/
  host : List HostAct
  /-- Input: the replies to the next draws; after the end each answer is free (log entry 2). -/
  rngIn : List RngReply
  /-- Input: the sink's treatment of the next transfers; after the end it takes every frame (log entry 3). -/
  sinkIn : List SinkReply
  /-- History: the completed draws, oldest first (R39). -/
  draws : List Draw
  /-- History: the presented frames, oldest first (R39). -/
  frames : List Frame
  deriving DecidableEq, Repr

/-- The machine of this hardware at the end of the reset sequence (R40), with every reset draw answered 1 (log entry 4). -/
def State.reset : State where
  creg := 0
  busy := false
  fault := false
  faultCode := .none
  faultCmd := 0
  cmdWord := 0
  inReset := false
  wait := .none
  paceCnt := Option.none
  heat := Vector.replicate 224 hardware.fireInit
  head := Vector.replicate 224 false
  rint := Vector.replicate 224 0
  sint := Vector.replicate 224 0
  sweep := hardware.sweepInit
  fb := []
  host := []
  rngIn := []
  sinkIn := []
  draws := List.replicate 224 ⟨0, hardware.rainHeadOdds, 1⟩
  frames := []

end Sys2Proof.Machine
end

