-- ==== Sys2Proof/Machine/Ops.lean ====
section
/-! DEFINITION. The named operations on memory, registers and histories; acceptance and completion of a command; fault
entry, the one exception of the block (60_exceptions R260); draws; and the sequencing of a command's parts. The block has
no return from a fault (R262): the reset of Machine/Reset.lean is the only way out. -/

namespace Sys2Proof.Machine

/-- FB[k], none where FB_VALID[k] = 0. -/
def Memory.read : Memory → Nat → Option Colour
  | [], _ => none
  | (a, c) :: m, k => if a = k then some c else Memory.read m k

/-- FB_VALID[k] (R34). -/
def Memory.valid (m : Memory) (k : Nat) : Bool := (Memory.read m k).isSome

/-- FB[k] <- v and FB_VALID[k] <- 1. -/
def Memory.write : Memory → Nat → Colour → Memory
  | [], k, v => [(k, v)]
  | (a, c) :: m, k, v =>
    if k < a then (k, v) :: (a, c) :: m
    else if k = a then (k, v) :: m
    else (a, c) :: Memory.write m k v

/-- CREG <- v. -/
def State.setCreg (s : State) (v : Colour) : State := { s with creg := v }

/-- The whole of HEAT replaced. -/
def State.setHeat (s : State) (b : Bank Byte) : State := { s with heat := b }

/-- The whole of HEAD replaced. -/
def State.setHead (s : State) (b : Bank Bool) : State := { s with head := b }

/-- The whole of RINT replaced. -/
def State.setRint (s : State) (b : Bank Byte) : State := { s with rint := b }

/-- The whole of SINT replaced. -/
def State.setSint (s : State) (b : Bank Byte) : State := { s with sint := b }

/-- SWEEP <- v. -/
def State.setSweep (s : State) (v : Byte) : State := { s with sweep := v }

/-- The whole of FB and FB_VALID replaced. -/
def State.setFb (s : State) (m : Memory) : State := { s with fb := m }

/-- PACE_CNT <- n. -/
def State.setPace (s : State) (n : Option Nat) : State := { s with paceCnt := n }

/-- The host's next action is taken. -/
def State.popHost (s : State) : State := { s with host := s.host.tail }

/-- The random source's next scheduled reply is taken. -/
def State.popRng (s : State) : State := { s with rngIn := s.rngIn.tail }

/-- The sink's next scheduled treatment is taken. -/
def State.popSink (s : State) : State := { s with sinkIn := s.sinkIn.tail }

/-- A completed draw enters the history (R39). -/
def State.recordDraw (s : State) (d : Draw) : State := { s with draws := s.draws ++ [d] }

/-- A presented frame enters the history (R39, R112). -/
def State.recordFrame (s : State) (f : Frame) : State := { s with frames := s.frames ++ [f] }

/-- Acceptance of a word: STATUS.BUSY becomes 1 (R21). -/
def accept (w : Word) (s : State) : State := { s with busy := true, cmdWord := w }

/-- Completion of a command: STATUS.BUSY returns to 0 (R21, R100). -/
def complete (s : State) : State := { s with busy := false, cmdWord := 0 }

/-- Fault entry, `raise Fault(code)` (60_exceptions R260). -/
def faultEntry (code : FaultCode) (s : State) : State :=
  { s with
    fault := true
    faultCode := code
    faultCmd := s.cmdWord
    busy := false
    wait := .none
    cmdWord := 0 }

/-- The command stalls on a device that never answers, with STATUS.BUSY = 1 (R111, R268). -/
def stall (w : Wait) (s : State) : State := { s with wait := w, busy := true }

/-- Where a part of a command leaves the block. -/
inductive Flow where
  /-- The command goes on from this state. -/
  | go (s : State)
  /-- The command has ended here by fault entry, or stalled here. -/
  | halt (s : State)
  deriving DecidableEq, Repr

/-- The next part of the command runs unless the command has ended. -/
def Flow.andThen (f : Flow) (next : State → Flow) : Flow :=
  match f with
  | .go s => next s
  | .halt s => .halt s

/-- The state a whole command leaves: completed, faulted or stalled. -/
def Flow.final : Flow → State
  | .go s => complete s
  | .halt s => s

/-- One part per element of the list, in its order. -/
def Flow.loop {α : Type} (part : α → State → Flow) : List α → State → Flow
  | [], s => .go s
  | a :: l, s => (part a s).andThen (Flow.loop part l)

/-- A part run n times. -/
def Flow.times (part : State → Flow) : Nat → State → Flow
  | 0, s => .go s
  | n + 1, s => (part s).andThen (Flow.times part n)

/-- What the random source does with the next request: the scheduled reply, else a free answer (log entry 2). -/
def State.nextReply (s : State) : RngReply :=
  match s.rngIn with
  | r :: _ => r
  | [] => .ack (Config.rngData s.draws.length)

/-- `lo ≤ rng_data < hi` (R23). -/
def inRange (lo : Byte) (hi : BitVec 9) (v : Byte) : Bool := decide (lo.toNat ≤ v.toNat) && decide (v.toNat < hi.toNat)

/-- `v <- Draw(lo, hi)` and then the rest of the command (00_scope R13, 10_state R23): one recorded draw, RNG_RANGE on
an answer out of range (R253), a stall where no answer comes (R268). -/
def withDraw (lo : Byte) (hi : BitVec 9) (s : State) (rest : Byte → State → Flow) : Flow :=
  match s.nextReply with
  | .never => .halt (stall (.draw lo hi) s.popRng)
  | .ack v =>
    let s' := s.popRng.recordDraw ⟨lo, hi, v⟩
    if inRange lo hi v then rest v s' else .halt (faultEntry .rngRange s')

/-- A command's outcome: always a next state, since a fault is entered (R260) and a stall is a state (R268). -/
def command (body : State → Flow) (s : State) : Host.Outcome State Fault Refusal := .next (body s).final

end Sys2Proof.Machine
end

