-- ==== Sys2Proof/Machine/Flags.lean ====
section
/-! DEFINITION. STATUS, the only flag register (10_state R25, R37): its computed bit and its 16-bit value. -/

namespace Sys2Proof.Machine

/-- STATUS.FB_ALL_VALID: FB_VALID[k] = 1 for every k in 0..223 (R25, R100). -/
def State.fbAllValid (s : State) : Bool := linear.all fun k => Memory.valid s.fb k.val

/-- The number of a fault code (60_exceptions R250). -/
def FaultCode.bits : FaultCode → BitVec 4
  | .none => 0
  | .illegalOpcode => 1
  | .reservedBits => 2
  | .coordRange => 3
  | .undefRead => 4
  | .rngRange => 5

/-- STATUS: 9 reserved zeros, FB_ALL_VALID, FAULT_CODE, FAULT, BUSY from bit 15 down (R25). -/
def State.status (s : State) : BitVec 16 :=
  0#9 ++ BitVec.ofBool s.fbAllValid ++ s.faultCode.bits ++ BitVec.ofBool s.fault ++ BitVec.ofBool s.busy

end Sys2Proof.Machine
end

