-- ==== Sys2Proof/Machine/FrameBuffer.lean ====
section
/-! DEFINITION. The frame buffer, its write multiplexer and the frame transfer: NOP, LDC, FILL, SET, GET and PRESENT
(spec/40_frame_buffer.md). -/

namespace Sys2Proof.Machine

/-- The write path of FILL and RENDER: for r in 0..15, for c in 0..13, FB[idx(r, c)] <- colour(r, c) and FB_VALID <- 1
(R103, R106). -/
def fillFrom (colour : Row → Col → Colour) (m : Memory) : Memory :=
  rows.foldl (fun m r => cols.foldl (fun m c => Memory.write m (idx r c).val (colour r c)) m) m

/-- RENDER with a colour function that reads only effect state (R106). -/
def renderWith (colour : Row → Col → Colour) (s : State) : State := s.setFb (fillFrom colour s.fb)

/-- The colours of FB in linear-index order; only applied where every cell is valid (R110). -/
def frameCells (m : Memory) : Bank Colour := Vector.ofFn fun k : Cell => (Memory.read m k.val).getD 0

/-- What the sink does with the next transfer: the scheduled treatment, else it takes the frame (log entry 3). -/
def State.nextSink (s : State) : SinkReply :=
  match s.sinkIn with
  | r :: _ => r
  | [] => .takesFrame

/-- `Present(fps)`, the frame transfer (R110, R111, R112). -/
def present (fps : Fps) (s : State) : Flow :=
  if s.fbAllValid then
    match s.nextSink with
    | .takesFrame => .go (s.popSink.recordFrame ⟨fps, frameCells s.fb⟩)
    | .stopsAt k => .halt (stall (.beat fps k) s.popSink)
  else .halt (faultEntry .undefRead s)

/-- NOP (R101). -/
def execNop (s : State) : Host.Outcome State Fault Refusal := command .go s

/-- LDC #v: CREG <- v (R102). -/
def execLdc (v : Colour) (s : State) : Host.Outcome State Fault Refusal := command (fun s => .go (s.setCreg v)) s

/-- FILL: every cell becomes CREG (R103). -/
def execFill (s : State) : Host.Outcome State Fault Refusal := command (fun s => .go (renderWith (fun _ _ => s.creg) s)) s

/-- The access of SET and GET to the cell of their fields; COORD_RANGE where the column is 14 or 15, which the decode
raises already (R104, R105, R251). -/
def atCell (row col : BitVec 4) (access : Nat → State → Flow) (s : State) : Flow :=
  if legalCol col then access (fieldIndex row col) s else .halt (faultEntry .coordRange s)

/-- SET's access: FB[k] <- CREG, FB_VALID[k] <- 1 (R104). -/
def setCell (k : Nat) (s : State) : Flow := .go (s.setFb (Memory.write s.fb k s.creg))

/-- GET's access: UNDEF_READ where FB_VALID[k] = 0, else CREG <- FB[k] (R105). -/
def getCell (k : Nat) (s : State) : Flow :=
  match Memory.read s.fb k with
  | some c => .go (s.setCreg c)
  | none => .halt (faultEntry .undefRead s)

/-- SET r, c (R104). -/
def execSet (row col : BitVec 4) (s : State) : Host.Outcome State Fault Refusal := command (atCell row col setCell) s

/-- GET r, c (R105). -/
def execGet (row col : BitVec 4) (s : State) : Host.Outcome State Fault Refusal := command (atCell row col getCell) s

/-- PRESENT.FIRE (R113). -/
def execPresentFire (s : State) : Host.Outcome State Fault Refusal := command (present hardware.fpsFire) s

/-- PRESENT.RAIN (R114). -/
def execPresentRain (s : State) : Host.Outcome State Fault Refusal := command (present hardware.fpsRain) s

/-- PRESENT.STAR (R115). -/
def execPresentStar (s : State) : Host.Outcome State Fault Refusal := command (present hardware.fpsStar) s

/-- PRESENT.SWEEP (R116). -/
def execPresentSweep (s : State) : Host.Outcome State Fault Refusal := command (present hardware.fpsSweep) s

end Sys2Proof.Machine
end

