-- ==== Sys2Proof/Machine/Interpolator.lean ====
section
/-! DEFINITION. The shared linear-blend palette interpolator and the two INTERP commands (spec/41_interpolator.md). -/

namespace Sys2Proof.Machine

/-- P[s]. -/
def stop (P : Palette) (s : BitVec 4) : Colour := P[s.toNat]'s.isLt

/-- The bracketing stop below an index (R133). -/
def stopBelow (i : Byte) : BitVec 4 := i.extractLsb' 4 4

/-- The fractional position of an index (R133). -/
def fraction (i : Byte) : BitVec 4 := i.extractLsb' 0 4

/-- `Interp(P, i)` with PALETTE_WRAP and BLEND as arguments (R8, R133). -/
def interpWith (wrap : Bool) (mix : Colour → Colour → BitVec 4 → Colour) (P : Palette) (i : Byte) : Colour :=
  let s := stopBelow i
  let f := fraction i
  if f = 0 then stop P s
  else if s = 15 ∧ wrap = false then stop P 15
  else mix (stop P s) (stop P (s + 1)) f

/-- `Interp(P, i)` under the parameters p (R8, R133). -/
def interpOf (p : Config.Parameters) (P : Palette) (i : Byte) : Colour := interpWith p.paletteWrap p.blend P i

/-- `Interp(P, i)` of this hardware (R133). -/
def interp (P : Palette) (i : Byte) : Colour := interpOf hardware P i

/-- The semantics of INTERP.FIRE #i: CREG <- Interp(FIRE_PAL, i) (R136). -/
def interpFire (p : Config.Parameters) (i : Byte) (s : State) : State := s.setCreg (interpOf p p.firePalette i)

/-- The semantics of INTERP.HUE #i: CREG <- Interp(HUE_PAL, i) (R137). -/
def interpHue (p : Config.Parameters) (i : Byte) (s : State) : State := s.setCreg (interpOf p p.huePalette i)

/-- INTERP.FIRE #i (R136). -/
def execInterpFire (i : Byte) (s : State) : Host.Outcome State Fault Refusal :=
  command (fun s => .go (interpFire hardware i s)) s

/-- INTERP.HUE #i (R137). -/
def execInterpHue (i : Byte) (s : State) : Host.Outcome State Fault Refusal :=
  command (fun s => .go (interpHue hardware i s)) s

end Sys2Proof.Machine
end

