-- ==== Sys2Proof/Machine/Fire.lean ====
section
/-! DEFINITION. The Fire engine (spec/43_fire.md). -/

namespace Sys2Proof.Machine

/-- colour_FIRE(r, c) (R170). -/
def colourFire (p : Config.Parameters) (s : State) (r : Row) (c : Col) : Colour :=
  interpOf p p.firePalette (entry s.heat (idx r c))

/-- The semantics of INIT.FIRE: every heat index becomes FIRE_INIT (R171). -/
def initFire (p : Config.Parameters) (s : State) : State := s.setHeat (fillBank p.fireInit)

/-- The semantics of RENDER.FIRE (R172). -/
def renderFire (p : Config.Parameters) (s : State) : State := renderWith (colourFire p s) s

/-- `rise(x)` (R173, R174). -/
def rise (p : Config.Parameters) (x : Byte) : Byte := satSub8 (satAdd8 x p.fireAdd) p.fireSub

/-- The rise of one row: for c in 0..13, HEAT[idx(r, c)] <- rise(HEAT[idx(r - 1, c)]), with `below` = r - 1 (R173). -/
def riseRow (p : Config.Parameters) (heat : Bank Byte) (below : Fin 15) : Bank Byte :=
  cols.foldl (fun h c => put h (idx below.succ c) (rise p (entry h (idx below.castSucc c)))) heat

/-- The in-place sweep, row 15 first and row 1 last (R173). -/
def riseSweep (p : Config.Parameters) (heat : Bank Byte) : Bank Byte := rowsDown.foldl (riseRow p) heat

/-- The fresh value of one bottom-row cell (R173). -/
def seedColumn (p : Config.Parameters) (c : Col) (s : State) : Flow :=
  withDraw p.fireSeedLo p.fireSeedHi s fun v s => .go (s.setHeat (put s.heat (idx 0 c) v))

/-- The semantics of ADVANCE.FIRE (R173). -/
def advanceFire (p : Config.Parameters) (s : State) : Flow :=
  Flow.loop (seedColumn p) cols (s.setHeat (riseSweep p s.heat))

/-- INIT.FIRE (R171). -/
def execInitFire (s : State) : Host.Outcome State Fault Refusal := command (fun s => .go (initFire hardware s)) s

/-- RENDER.FIRE (R172). -/
def execRenderFire (s : State) : Host.Outcome State Fault Refusal := command (fun s => .go (renderFire hardware s)) s

/-- ADVANCE.FIRE (R173). -/
def execAdvanceFire (s : State) : Host.Outcome State Fault Refusal := command (advanceFire hardware) s

end Sys2Proof.Machine
end

