-- ==== Sys2Proof/Machine/Rain.lean ====
section
/-! DEFINITION. The Rain engine (spec/44_rain.md). -/

namespace Sys2Proof.Machine

/-- colour_RAIN(r, c) (R191). -/
def colourRain (p : Config.Parameters) (s : State) (r : Row) (c : Col) : Colour := p.rainColour (entry s.rint (idx r c))

/-- HEAD[k] <- (Draw(0, RAIN_HEAD_ODDS) == 0) (R192). -/
def initHead (p : Config.Parameters) (k : Cell) (s : State) : Flow :=
  withDraw 0 p.rainHeadOdds s fun v s => .go (s.setHead (put s.head k (decide (v = 0))))

/-- The semantics of INIT.RAIN: RINT to 0, then 224 draws in linear-index order (R192). -/
def initRain (p : Config.Parameters) (s : State) : Flow := Flow.loop (initHead p) linear (s.setRint (fillBank 0))

/-- The semantics of RENDER.RAIN (R193). -/
def renderRain (p : Config.Parameters) (s : State) : State := renderWith (colourRain p s) s

/-- A head moves from a to b iff a is a head and b is not (R194 stage 1). -/
def moveHead (head : Bank Bool) (a b : Cell) : Bank Bool :=
  if entry head a = true ∧ entry head b = false then put (put head a false) b true else head

/-- One head-move attempt, reading the map the earlier attempts left (R194 stage 1, R195). -/
def attempt (s : State) : Flow :=
  withDraw 0 224 s fun a s => withDraw 0 224 s fun b s => .go (s.setHead (moveHead s.head (cellOfByte a) (cellOfByte b)))

/-- Every intensity fades by RAIN_FADE (R194 stage 2). -/
def fadeRain (p : Config.Parameters) (rint : Bank Byte) : Bank Byte := rint.map fun v => satSub8 v p.rainFade

/-- One column rotated one row toward row 0, in place; row 15 takes row 0's old value (R194 stage 3). -/
def rotateColumn (head : Bank Bool) (c : Col) : Bank Bool :=
  let h0 := entry head (idx 0 c)
  let shifted := rowsUp.foldl (fun h r => put h (idx r.castSucc c) (entry h (idx r.succ c))) head
  put shifted (idx 15 c) h0

/-- Every column rotated (R194 stage 3). -/
def rotateHeads (head : Bank Bool) : Bank Bool := cols.foldl rotateColumn head

/-- Every head lights to RAIN_HEAD_LEVEL (R194 stage 4). -/
def lightHeads (p : Config.Parameters) (head : Bank Bool) (rint : Bank Byte) : Bank Byte :=
  linear.foldl (fun b k => if entry head k then put b k p.rainHeadLevel else b) rint

/-- Stages 2, 3 and 4 of ADVANCE.RAIN in that order (R194, R288). -/
def fadeRotateLight (p : Config.Parameters) (s : State) : State :=
  let s := s.setRint (fadeRain p s.rint)
  let s := s.setHead (rotateHeads s.head)
  s.setRint (lightHeads p s.head s.rint)

/-- The semantics of ADVANCE.RAIN (R194). -/
def advanceRain (p : Config.Parameters) (s : State) : Flow :=
  (Flow.times attempt p.rainAttempts s).andThen fun s => .go (fadeRotateLight p s)

/-- INIT.RAIN (R192). -/
def execInitRain (s : State) : Host.Outcome State Fault Refusal := command (initRain hardware) s

/-- RENDER.RAIN (R193). -/
def execRenderRain (s : State) : Host.Outcome State Fault Refusal := command (fun s => .go (renderRain hardware s)) s

/-- ADVANCE.RAIN (R194). -/
def execAdvanceRain (s : State) : Host.Outcome State Fault Refusal := command (advanceRain hardware) s

end Sys2Proof.Machine
end

