-- ==== Sys2Proof/Machine/Star.lean ====
section
/-! DEFINITION. The Starfield engine (spec/45_starfield.md). -/

namespace Sys2Proof.Machine

/-- colour_STAR(r, c): the intensity on all three channels (R210). -/
def colourStar (s : State) (r : Row) (c : Col) : Colour :=
  let i := entry s.sint (idx r c)
  rgb i i i

/-- The semantics of INIT.STAR (R211). -/
def initStar (s : State) : State := s.setSint (fillBank 0)

/-- The semantics of RENDER.STAR (R212). -/
def renderStar (s : State) : State := renderWith (colourStar s) s

/-- Every intensity fades by STAR_FADE (R213). -/
def fadeStar (p : Config.Parameters) (sint : Bank Byte) : Bank Byte := sint.map fun v => satSub8 v p.starFade

/-- The spawn: a drawn cell is set to a value drawn from [STAR_LO, STAR_HI + 1) (R213, D25). -/
def spawnStar (p : Config.Parameters) (s : State) : Flow :=
  withDraw 0 224 s fun k s =>
    withDraw p.starLo (BitVec.ofNat 9 (p.starHi.toNat + 1)) s fun v s =>
      .go (s.setSint (put s.sint (cellOfByte k) v))

/-- The semantics of ADVANCE.STAR: the fade, then the spawn where the first draw is 0 (R213, R289). -/
def advanceStar (p : Config.Parameters) (s : State) : Flow :=
  withDraw 0 p.starSpawnOdds (s.setSint (fadeStar p s.sint)) fun v s => if v = 0 then spawnStar p s else .go s

/-- INIT.STAR (R211). -/
def execInitStar (s : State) : Host.Outcome State Fault Refusal := command (fun s => .go (initStar s)) s

/-- RENDER.STAR (R212). -/
def execRenderStar (s : State) : Host.Outcome State Fault Refusal := command (fun s => .go (renderStar s)) s

/-- ADVANCE.STAR (R213). -/
def execAdvanceStar (s : State) : Host.Outcome State Fault Refusal := command (advanceStar hardware) s

end Sys2Proof.Machine
end

