-- ==== Sys2Proof/Machine/Sweep.lean ====
section
/-! DEFINITION. The Palette-Sweep counter (spec/46_sweep.md). -/

namespace Sys2Proof.Machine

/-- colour_SWEEP(r, c), the same for every cell (R230). -/
def colourSweep (p : Config.Parameters) (s : State) (_ : Row) (_ : Col) : Colour := interpOf p p.huePalette s.sweep

/-- The semantics of INIT.SWEEP (R231). -/
def initSweep (p : Config.Parameters) (s : State) : State := s.setSweep p.sweepInit

/-- The semantics of RENDER.SWEEP (R232). -/
def renderSweep (p : Config.Parameters) (s : State) : State := renderWith (colourSweep p s) s

/-- The semantics of ADVANCE.SWEEP (R233). -/
def advanceSweep (p : Config.Parameters) (s : State) : State := s.setSweep (wrapAdd8 s.sweep p.sweepStep)

/-- INIT.SWEEP (R231). -/
def execInitSweep (s : State) : Host.Outcome State Fault Refusal := command (fun s => .go (initSweep hardware s)) s

/-- RENDER.SWEEP (R232). -/
def execRenderSweep (s : State) : Host.Outcome State Fault Refusal := command (fun s => .go (renderSweep hardware s)) s

/-- ADVANCE.SWEEP (R233). -/
def execAdvanceSweep (s : State) : Host.Outcome State Fault Refusal := command (fun s => .go (advanceSweep hardware s)) s

end Sys2Proof.Machine
end

