-- ==== Sys2Proof/Machine/Control.lean ====
section
/-! DEFINITION. Pacing and the four UPDATE commands (spec/42_effect_control.md). -/

namespace Sys2Proof.Machine

/-- The least number of clock cycles of the pacing wait, `ceil(CLK_HZ / fps)` (R155). -/
def paceCycles (p : Config.Parameters) (fps : Fps) : Nat := (p.clkHz + fps.toNat - 1) / fps.toNat

/-- The pacing wait begins: PACE_CNT holds the cycles to wait (R155, R266). -/
def paceStart (p : Config.Parameters) (fps : Fps) (s : State) : State := s.setPace (some (paceCycles p fps))

/-- The pacing wait ends: PACE_CNT is idle again (R38, R155). -/
def paceEnd (s : State) : State := s.setPace none

/-- `Pace(fps)`: it changes no other state and always ends (R155; log entry 9). -/
def pace (p : Config.Parameters) (fps : Fps) (s : State) : State := paceEnd (paceStart p fps s)

/-- The generic UPDATE: render, Present, Pace, advance, in that order (R153, R156). -/
def update (p : Config.Parameters) (fps : Fps) (render : State → State) (advance : State → Flow) (s : State) : Flow :=
  (present fps (render s)).andThen fun s => advance (pace p fps s)

/-- The semantics of UPDATE.FIRE (R157). -/
def updateFire (p : Config.Parameters) (s : State) : Flow := update p p.fpsFire (renderFire p) (advanceFire p) s

/-- The semantics of UPDATE.RAIN (R158). -/
def updateRain (p : Config.Parameters) (s : State) : Flow := update p p.fpsRain (renderRain p) (advanceRain p) s

/-- The semantics of UPDATE.STAR (R159). -/
def updateStar (p : Config.Parameters) (s : State) : Flow := update p p.fpsStar renderStar (advanceStar p) s

/-- The semantics of UPDATE.SWEEP (R160). -/
def updateSweep (p : Config.Parameters) (s : State) : Flow :=
  update p p.fpsSweep (renderSweep p) (fun s => .go (advanceSweep p s)) s

/-- UPDATE.FIRE (R157). -/
def execUpdateFire (s : State) : Host.Outcome State Fault Refusal := command (updateFire hardware) s

/-- UPDATE.RAIN (R158). -/
def execUpdateRain (s : State) : Host.Outcome State Fault Refusal := command (updateRain hardware) s

/-- UPDATE.STAR (R159). -/
def execUpdateStar (s : State) : Host.Outcome State Fault Refusal := command (updateStar hardware) s

/-- UPDATE.SWEEP (R160). -/
def execUpdateSweep (s : State) : Host.Outcome State Fault Refusal := command (updateSweep hardware) s

end Sys2Proof.Machine
end

