-- ==== Sys2Proof/Machine/Reset.lean ====
section
/-! DEFINITION. Reset: the values held while `rst_n` = 0 (10_state R41) and the reset sequence (70_reset R280). -/

namespace Sys2Proof.Machine

/-- HEAD while `rst_n` = 0: unspecified, so free (R41, U24; log entry 5). -/
def headDuringReset (s : State) : Bank Bool := Vector.ofFn fun k : Cell => Config.headInReset s.draws.length k.val

/-- An edge with `rst_n` = 0: every register takes its value of R41; the inputs and histories are not the block's. -/
def holdReset (p : Config.Parameters) (s : State) : State :=
  { s with
    creg := 0
    busy := true
    fault := false
    faultCode := .none
    faultCmd := 0
    cmdWord := 0
    inReset := true
    wait := .none
    paceCnt := none
    heat := fillBank p.fireInit
    head := headDuringReset s
    rint := fillBank 0
    sint := fillBank 0
    sweep := p.sweepInit
    fb := [] }

/-- The register writes that begin the reset sequence, with STATUS.BUSY = 1 (R280). -/
def beginSequence (s : State) : State :=
  { s with
    creg := 0
    faultCmd := 0
    fault := false
    faultCode := .none
    fb := []
    cmdWord := 0
    busy := true
    inReset := false }

/-- The parts of the reset sequence: FIRE, RAIN, STAR, SWEEP constructed in that order (R280, D28). -/
def sequenceBody (p : Config.Parameters) (s : State) : Flow :=
  (initRain p (initFire p (beginSequence s))).andThen fun s => .go (initSweep p (initStar s))

/-- The reset sequence (R280): ready at its end, or faulted with FAULT_CMD = 0, or stalled on a draw. -/
def resetSequence (p : Config.Parameters) (s : State) : State := (sequenceBody p s).final

end Sys2Proof.Machine
end

