-- ==== Sys2Proof/Machine/Dispatch.lean ====
section
/-! DEFINITION. The dispatch of a command to its meaning, one arm per constructor of Instr. -/

namespace Sys2Proof.Machine

def exec (i : Instr) (s : State) : Host.Outcome State Fault Refusal :=
  match i with
  | .nop => Sys2Proof.Machine.execNop s
  | .initFire => Sys2Proof.Machine.execInitFire s
  | .initRain => Sys2Proof.Machine.execInitRain s
  | .initStar => Sys2Proof.Machine.execInitStar s
  | .initSweep => Sys2Proof.Machine.execInitSweep s
  | .renderFire => Sys2Proof.Machine.execRenderFire s
  | .renderRain => Sys2Proof.Machine.execRenderRain s
  | .renderStar => Sys2Proof.Machine.execRenderStar s
  | .renderSweep => Sys2Proof.Machine.execRenderSweep s
  | .presentFire => Sys2Proof.Machine.execPresentFire s
  | .presentRain => Sys2Proof.Machine.execPresentRain s
  | .presentStar => Sys2Proof.Machine.execPresentStar s
  | .presentSweep => Sys2Proof.Machine.execPresentSweep s
  | .advanceFire => Sys2Proof.Machine.execAdvanceFire s
  | .advanceRain => Sys2Proof.Machine.execAdvanceRain s
  | .advanceStar => Sys2Proof.Machine.execAdvanceStar s
  | .advanceSweep => Sys2Proof.Machine.execAdvanceSweep s
  | .updateFire => Sys2Proof.Machine.execUpdateFire s
  | .updateRain => Sys2Proof.Machine.execUpdateRain s
  | .updateStar => Sys2Proof.Machine.execUpdateStar s
  | .updateSweep => Sys2Proof.Machine.execUpdateSweep s
  | .ldc v => Sys2Proof.Machine.execLdc v s
  | .fill => Sys2Proof.Machine.execFill s
  | .set row col => Sys2Proof.Machine.execSet row col s
  | .get row col => Sys2Proof.Machine.execGet row col s
  | .interpFire pidx => Sys2Proof.Machine.execInterpFire pidx s
  | .interpHue pidx => Sys2Proof.Machine.execInterpHue pidx s

end Sys2Proof.Machine
end

