-- ==== Sys2Proof/Machine/Ports.lean ====
section
/-! DEFINITION. The block's output ports as views of the state (10_state R20 to R23, 60_exceptions R263). -/

namespace Sys2Proof.Machine

/-- `cmd_ready`: 1 iff STATUS.BUSY = 0 and STATUS.FAULT = 0 (R21); BUSY is 1 while `rst_n` = 0 (R20, R41). -/
def State.cmdReady (s : State) : Bool := !s.busy && !s.fault

/-- `result` (R21). -/
def State.result (s : State) : Colour := s.creg

/-- `fault_cmd` (R21). -/
def State.faultCmdPort (s : State) : Word := s.faultCmd

/-- `fault_irq`: the level STATUS.FAULT (R21, R263). -/
def State.faultIrq (s : State) : Bool := s.fault

/-- `rng_req` (R23). -/
def State.rngReq (s : State) : Bool :=
  match s.wait with
  | .draw _ _ => true
  | .none => false
  | .beat _ _ => false

/-- `rng_lo` and `rng_hi` while `rng_req` = 1 (R23). -/
def State.rngBounds (s : State) : Option (Byte × BitVec 9) :=
  match s.wait with
  | .draw lo hi => some (lo, hi)
  | .none => none
  | .beat _ _ => none

/-- One beat as the sink port carries it (R22). -/
structure Beat where
  index : Cell
  data : Colour
  last : Bool
  fps : Fps
  deriving DecidableEq, Repr

/-- Beat k of a frame with these cells: `sink_last` = 1 on k = 223 only, `sink_fps` constant (R22, R112). -/
def beatOf (fps : Fps) (cells : Bank Colour) (k : Cell) : Beat :=
  ⟨k, entry cells k, decide (k.val = 223), fps⟩

/-- The 224 beats of a frame, k = 0, 1, ..., 223 (R22, R55). -/
def Frame.beats (f : Frame) : List Beat := linear.map (beatOf f.fps f.cells)

/-- The FB cells as a frame would carry them. -/
def State.fbCells (s : State) : Bank Colour := frameCells s.fb

/-- The beat offered while `sink_valid` = 1 (R22); none is `sink_valid` = 0. -/
def State.sinkOffer (s : State) : Option Beat :=
  match s.wait with
  | .beat fps k => some (beatOf fps s.fbCells k)
  | .none => none
  | .draw _ _ => none

/-- The beats of the transfer in progress that the sink has taken: those before the one offered (R38, R111). -/
def State.beatsTaken (s : State) : List Beat :=
  match s.wait with
  | .beat fps k => (linear.take k.val).map (beatOf fps s.fbCells)
  | .none => []
  | .draw _ _ => []

end Sys2Proof.Machine
end

