-- ==== Sys2Proof/Machine/Fetch.lean ====
section
/-! DEFINITION. Acceptance and decode of a command word, and what one rising edge of `clk` does with the host's action
(10_state R20, R21; 30_encoding R78). -/

namespace Sys2Proof.Machine

/-- The fault code of a decode fault (60_exceptions R250). -/
def codeOf : DecodeFault → FaultCode
  | .illegalOpcode => .illegalOpcode
  | .reservedBits => .reservedBits
  | .coordRange => .coordRange

/-- A word is accepted, decoded and run to completion; a decode fault changes nothing but what fault entry changes
(R21, R78, R260). -/
def runWord (w : Word) (s : State) : Host.Outcome State Fault Refusal :=
  match decode w with
  | .ok i => exec i (accept w s)
  | .error e => .next (faultEntry (codeOf e) (accept w s))

/-- What the host does at this edge; past its listed actions it leaves the port idle (log entry 1). -/
def State.hostAct (s : State) : HostAct :=
  match s.host with
  | a :: _ => a
  | [] => .idle

/-- An edge at which the block takes nothing from the host: nothing changes; a block stalled on a device whose host will
never reset it has no step (R268). -/
def holdStill (s : State) : Host.Outcome State Fault Refusal :=
  match s.host, s.wait with
  | [], .draw _ _ => .fault .stuckOnRandomSource
  | [], .beat _ _ => .fault .stuckOnDisplaySink
  | [], .none => .next s
  | _ :: _, _ => .next s.popHost

/-- One step: with `rst_n` = 0 the block is held in reset whatever else is going on (R20); at the first edge with
`rst_n` = 1 the reset sequence runs (R280); after it a word offered while `cmd_ready` = 1 is accepted, and one offered
while it is 0 has no effect (R21). -/
def clockStep (s : State) : Host.Outcome State Fault Refusal :=
  match s.hostAct with
  | .resetLow => .next (holdReset hardware s.popHost)
  | .offer w =>
    if s.inReset then .next (resetSequence hardware s.popHost)
    else if s.cmdReady then runWord w s.popHost
    else holdStill s
  | .idle => if s.inReset then .next (resetSequence hardware s.popHost) else holdStill s

/-- The state with this word offered at the next step. -/
def offerWord (w : Word) (s : State) : State := { s with host := .offer w :: s.host }

end Sys2Proof.Machine
end

