-- ==== Sys2Proof/Machine/Step.lean ====
section
/-! DEFINITION. One step of the machine: one rising edge of `clk`, at which a command is accepted and run to completion,
the block waits, or a reset takes place. -/

namespace Sys2Proof.Machine

/-- One step (10_state R20, R21, R36). -/
def step (s : State) : Host.Outcome State Fault Refusal := clockStep s

/-- The state with an instruction word of the opcode table, its bits above `nbits` 0, offered on the command port at the
next step: the host's commands are the program (R36; log entry 1). -/
def State.withFetchWord (s : State) (nbits w : Nat) : State := offerWord (BitVec.ofNat 32 (w % 2 ^ nbits)) s

end Sys2Proof.Machine
end

