-- ==== Sys2Proof/Machine/Assembler.lean ====
section
/-! DEFINITION. The assembler of 30_encoding R81 and the pseudo-commands of R82, on the characters of one line (log entry
11 for what R81 leaves open about blanks and letters). -/

namespace Sys2Proof.Machine

/-- An operand: a plain number, or an immediate after `#` (R81). -/
inductive AsmOperand where
  | num (n : Nat)
  | imm (n : Nat)
  deriving DecidableEq, Repr

/-- A blank or a tab. -/
def isBlank (c : Char) : Bool := c == ' ' || c == '\t'

/-- The text without blanks at its two ends. -/
def trim (l : List Char) : List Char := ((l.dropWhile isBlank).reverse.dropWhile isBlank).reverse

/-- The line up to a `;`, which starts a comment (R81). -/
def dropComment (l : List Char) : List Char := l.takeWhile fun c => c != ';'

/-- The text cut at its commas. -/
def splitCommas : List Char → List (List Char)
  | [] => [[]]
  | c :: l =>
    match splitCommas l with
    | [] => [[c]]
    | part :: parts => if c = ',' then [] :: part :: parts else (c :: part) :: parts

/-- The value of a digit in base 16. -/
def digitValue (c : Char) : Option Nat :=
  if '0' ≤ c ∧ c ≤ '9' then some (c.toNat - '0'.toNat)
  else if 'a' ≤ c ∧ c ≤ 'f' then some (c.toNat - 'a'.toNat + 10)
  else if 'A' ≤ c ∧ c ≤ 'F' then some (c.toNat - 'A'.toNat + 10)
  else none

/-- The value of a digit string in a base, most significant digit first. -/
def digitsValue (base : Nat) : List Char → Nat → Option Nat
  | [], acc => some acc
  | c :: l, acc =>
    match digitValue c with
    | some d => if d < base then digitsValue base l (acc * base + d) else none
    | none => none

/-- A number, decimal or `0x` hexadecimal (R81). -/
def parseNumber : List Char → Option Nat
  | [] => none
  | '0' :: 'x' :: [] => none
  | '0' :: 'x' :: l => digitsValue 16 l 0
  | l => digitsValue 10 l 0

/-- An operand (R81). -/
def parseOperand (l : List Char) : Option AsmOperand :=
  match trim l with
  | '#' :: n => (parseNumber n).map .imm
  | n => (parseNumber n).map .num

/-- The commands without operands, and the pseudo-commands without operands with their expansions (R81, R82). -/
def plainForms : List (List Char × List Instr) :=
  [("NOP".toList, [.nop]), ("FILL".toList, [.fill]),
   ("INIT.FIRE".toList, [.initFire]), ("INIT.RAIN".toList, [.initRain]),
   ("INIT.STAR".toList, [.initStar]), ("INIT.SWEEP".toList, [.initSweep]),
   ("RENDER.FIRE".toList, [.renderFire]), ("RENDER.RAIN".toList, [.renderRain]),
   ("RENDER.STAR".toList, [.renderStar]), ("RENDER.SWEEP".toList, [.renderSweep]),
   ("PRESENT.FIRE".toList, [.presentFire]), ("PRESENT.RAIN".toList, [.presentRain]),
   ("PRESENT.STAR".toList, [.presentStar]), ("PRESENT.SWEEP".toList, [.presentSweep]),
   ("ADVANCE.FIRE".toList, [.advanceFire]), ("ADVANCE.RAIN".toList, [.advanceRain]),
   ("ADVANCE.STAR".toList, [.advanceStar]), ("ADVANCE.SWEEP".toList, [.advanceSweep]),
   ("UPDATE.FIRE".toList, [.updateFire]), ("UPDATE.RAIN".toList, [.updateRain]),
   ("UPDATE.STAR".toList, [.updateStar]), ("UPDATE.SWEEP".toList, [.updateSweep]),
   ("CLEAR".toList, [.ldc 0, .fill]),
   ("FRAME.FIRE".toList, [.renderFire, .presentFire, .advanceFire]),
   ("FRAME.RAIN".toList, [.renderRain, .presentRain, .advanceRain]),
   ("FRAME.STAR".toList, [.renderStar, .presentStar, .advanceStar]),
   ("FRAME.SWEEP".toList, [.renderSweep, .presentSweep, .advanceSweep])]

/-- LDC's operand, refused above 0xFFFFFF (R81). -/
def colourOperand (v : Nat) : Option Colour := if v < 2 ^ 24 then some (BitVec.ofNat 24 v) else none

/-- INTERP's operand, refused above 255 (R81). -/
def indexOperand (i : Nat) : Option Byte := if i < 256 then some (BitVec.ofNat 8 i) else none

/-- A command on the cell (r, c), refused for r above 15 or c above 13 (R81). -/
def cellForm (f : BitVec 4 → BitVec 4 → Instr) (r c : Nat) : Option Instr :=
  if r < 16 ∧ c < 14 then some (f (BitVec.ofNat 4 r) (BitVec.ofNat 4 c)) else none

/-- The commands a mnemonic with its operands stands for; none where the assembler refuses (R81, R82). -/
def expand (mnemonic : List Char) (operands : List AsmOperand) : Option (List Instr) :=
  match operands with
  | [] => (plainForms.find? fun form => form.1 == mnemonic).map (·.2)
  | [.imm v] =>
    if mnemonic = "LDC".toList then (colourOperand v).map fun v => [.ldc v]
    else if mnemonic = "FILLC".toList then (colourOperand v).map fun v => [.ldc v, .fill]
    else if mnemonic = "INTERP.FIRE".toList then (indexOperand v).map fun i => [.interpFire i]
    else if mnemonic = "INTERP.HUE".toList then (indexOperand v).map fun i => [.interpHue i]
    else none
  | [.num r, .num c] =>
    if mnemonic = "SET".toList then (cellForm .set r c).map fun i => [i]
    else if mnemonic = "GET".toList then (cellForm .get r c).map fun i => [i]
    else none
  | [.num r, .num c, .imm v] =>
    if mnemonic = "SETC".toList then
      match colourOperand v, cellForm .set r c with
      | some v, some i => some [.ldc v, i]
      | _, _ => none
    else none
  | _ => none

/-- The operands after the mnemonic; none where one is no operand. -/
def parseOperands (l : List Char) : Option (List AsmOperand) :=
  if trim l = [] then some [] else (splitCommas l).mapM parseOperand

/-- The words one line assembles to, none of them for an empty line; `none` where the assembler refuses the line. -/
def assembleLine (line : List Char) : Option (List Word) :=
  let text := trim (dropComment line)
  if text = [] then some []
  else
    match parseOperands (text.dropWhile fun c => !isBlank c) with
    | some operands => (expand (text.takeWhile fun c => !isBlank c) operands).map fun is => is.map encode
    | none => none

end Sys2Proof.Machine
end

