-- ==== Sys2Proof/Safety.lean ====
section
/-! DEFINITION. The terms claims use: the replies a state's draws will get, runs of several commands, the invariant of
the block between steps, and what counts as a normal end. -/

namespace Sys2Proof.Machine

/-- How the random source treats the j-th draw from now on, if those before it are all answered. -/
def State.replyAt (s : State) (j : Nat) : RngReply :=
  match s.rngIn[j]? with
  | some r => r
  | none => .ack (Config.rngData (s.draws.length + j))

/-- The byte the j-th draw from now on is answered with; 0 where it is never answered. -/
def State.answerAt (s : State) (j : Nat) : Byte :=
  match s.replyAt j with
  | .ack v => v
  | .never => 0

/-- The j-th draw from now on is answered within [lo, hi). -/
def State.answered (s : State) (j : Nat) (lo : Byte) (hi : BitVec 9) : Bool :=
  match s.replyAt j with
  | .ack v => inRange lo hi v
  | .never => false

/-- The records of the next n draws, all of them from [lo, hi). -/
def State.drawsMade (s : State) (n : Nat) (lo : Byte) (hi : BitVec 9) : List Draw :=
  (List.range n).map fun j => ⟨lo, hi, s.answerAt j⟩

/-- Commands executed one after another, as the block executes accepted commands (20_memory R61). -/
def execAll : List Instr → State → Host.Outcome State Fault Refusal
  | [], s => .next s
  | i :: is, s =>
    match exec i s with
    | .next t => execAll is t
    | .fault f => .fault f
    | .refused r => .refused r

/-- The number of head bits set (44_rain R196). -/
def headCount (b : Bank Bool) : Nat := (linear.filter fun k => entry b k).length

/-- The head map after the first n attempts of an ADVANCE.RAIN, each reading what the earlier ones left (R194, R195). -/
def State.movedHeads (s : State) (n : Nat) : Bank Bool :=
  (List.range n).foldl
    (fun h t => moveHead h (cellOfByte (s.answerAt (2 * t))) (cellOfByte (s.answerAt (2 * t + 1)))) s.head

/-- The heat array is the one R173 and R175 give for an advance from `s`: rows 1 to 15 risen from the row below, row 0
the drawn values in column order. -/
def FireAdvanced (s : State) (h : Bank Byte) : Prop :=
  (∀ c : Col, entry h (idx 0 c) = s.answerAt c.val) ∧
  ∀ (below : Fin 15) (c : Col),
    entry h (idx below.succ c) = satSub8 (satAdd8 (entry s.heat (idx below.castSucc c)) 0x1F) 0x0F

/-- The head map and intensities are those R194 gives for an advance from `s`: 24 moves, then every column one row down,
every intensity down by 48, every head at 255. -/
def RainAdvanced (s : State) (h : Bank Bool) (i : Bank Byte) : Prop :=
  (∀ (r : Row) (c : Col), entry h (idx r c) = entry (s.movedHeads 24) (idx (r + 1) c)) ∧
  ∀ k : Cell, entry i k = if entry h k then 255 else satSub8 (entry s.rint k) 48

/-- The intensities are those R213 gives for an advance from `s`: all faded by 2, then the spawn where the first answer is
0, at the cell and with the value of the second and third answers. -/
def StarAdvanced (s : State) (b : Bank Byte) : Prop :=
  ∀ k : Cell, entry b k =
    if s.answerAt 0 = 0 ∧ (s.answerAt 1).toNat = k.val then s.answerAt 2 else satSub8 (entry s.sint k) 2

/-- The draws of an ADVANCE.STAR are answered in range: the first, and where it is 0 the second and third too (R213). -/
def State.starAnswered (s : State) : Bool :=
  s.answered 0 0 4 && (s.answerAt 0 != 0 || (s.answered 1 0 224 && s.answered 2 0xA0 0x100))

/-- The records of the draws of an ADVANCE.STAR (R213). -/
def State.starDraws (s : State) : List Draw :=
  if s.answerAt 0 = 0 then [⟨0, 4, s.answerAt 0⟩, ⟨0, 224, s.answerAt 1⟩, ⟨0xA0, 0x100, s.answerAt 2⟩]
  else [⟨0, 4, s.answerAt 0⟩]

/-- The bounds of the three draws of an ADVANCE.STAR: the spawn, its cell, its value (R213). -/
def starBounds (n : Fin 3) : Byte × BitVec 9 :=
  match n with
  | 0 => (0, 4)
  | 1 => (0, 224)
  | 2 => (0xA0, 0x100)

/-- An ADVANCE.STAR comes to its n-th draw: to the second where the first answer is 0, to the third where the second is in
range too (R213). -/
def State.starReaches (s : State) (n : Fin 3) : Prop :=
  (0 < n.val → s.answered 0 0 4 = true ∧ s.answerAt 0 = 0) ∧ (1 < n.val → s.answered 1 0 224 = true)

/-- The records of the first n draws of an ADVANCE.STAR. -/
def State.starMade (s : State) (n : Nat) : List Draw :=
  ((List.finRange 3).take n).map fun j => ⟨(starBounds j).1, (starBounds j).2, s.answerAt j.val⟩

/-- All intensities faded by 2 and no cell spawned (R213). -/
def StarFaded (s : State) (b : Bank Byte) : Prop := ∀ k : Cell, entry b k = satSub8 (entry s.sint k) 2

/-- An advance from `s` that has seeded the first n columns of row 0: every row above risen, the other columns of row 0 as
they were (R173). -/
def FireSeededTo (s : State) (n : Nat) (h : Bank Byte) : Prop :=
  (∀ c : Col, entry h (idx 0 c) = if c.val < n then s.answerAt c.val else entry s.heat (idx 0 c)) ∧
  ∀ (below : Fin 15) (c : Col),
    entry h (idx below.succ c) = satSub8 (satAdd8 (entry s.heat (idx below.castSucc c)) 0x1F) 0x0F

/-- The head map with its first n cells drawn, the other cells as they were (R192). -/
def HeadsDrawnTo (s : State) (n : Nat) (h : Bank Bool) : Prop :=
  ∀ k : Cell, entry h k = if k.val < n then decide (s.answerAt k.val = 0) else entry s.head k

/-- The state with n replies taken and these draws made, the last of which raised RNG_RANGE: fault entry writes STATUS and
FAULT_CMD (60_exceptions R253, R260). -/
def State.stoppedAtDraw (s : State) (n : Nat) (made : List Draw) : State :=
  { s with
    rngIn := s.rngIn.drop n, draws := s.draws ++ made
    fault := true, faultCode := .rngRange, faultCmd := s.cmdWord, busy := false, wait := .none, cmdWord := 0 }

/-- The state with n replies taken, the last of them silence, and these draws made: busy with a request of these bounds
(R268). -/
def State.waitingForDraw (s : State) (n : Nat) (made : List Draw) (lo : Byte) (hi : BitVec 9) : State :=
  { s with rngIn := s.rngIn.drop n, draws := s.draws ++ made, wait := .draw lo hi, busy := true }

/-- The memory is `s.fb` with every cell holding its colour (R106), and the frame carries those colours at this rate. -/
def Rendered (s : State) (colour : Row → Col → Colour) (m : Memory) : Prop :=
  (∀ (r : Row) (c : Col), Memory.read m (idx r c).val = some (colour r c)) ∧
  ∀ a, 224 ≤ a → Memory.read m a = Memory.read s.fb a

/-- The frame carries these colours in linear-index order at this rate (R112). -/
def Delivers (f : Frame) (fps : Fps) (colour : Row → Col → Colour) : Prop :=
  f.fps = fps ∧ ∀ (r : Row) (c : Col), entry f.cells (idx r c) = colour r c

/-- The state an UPDATE's advance starts from: FB holds the colours, one frame of them went out at this rate, and the
pacing wait is over (R156). -/
def Presented (s u : State) (fps : Fps) (colour : Row → Col → Colour) : Prop :=
  ∃ (m : Memory) (f : Frame), Rendered s colour m ∧ Delivers f fps colour ∧
    u = { s with fb := m, frames := s.frames ++ [f], sinkIn := s.sinkIn.tail, paceCnt := none }

/-- The colours a Fire frame shows (R170). -/
def State.fireShown (s : State) (r : Row) (c : Col) : Colour := interp Config.firePalette (entry s.heat (idx r c))

/-- The colours a Rain frame shows (R191). -/
def State.rainShown (s : State) (r : Row) (c : Col) : Colour := rainColour (entry s.rint (idx r c))

/-- The colours a Starfield frame shows (R210). -/
def State.starShown (s : State) (r : Row) (c : Col) : Colour :=
  rgb (entry s.sint (idx r c)) (entry s.sint (idx r c)) (entry s.sint (idx r c))

/-- The colours a Palette-Sweep frame shows (R230). -/
def State.sweepShown (s : State) (_ : Row) (_ : Col) : Colour := interp Config.huePalette s.sweep

/-- The UPDATE commands with their rates and the colours they show (R109, R157 to R160). -/
def State.updateForms (s : State) : List (Instr × Fps × (Row → Col → Colour)) :=
  [(.updateFire, 30, s.fireShown), (.updateRain, 10, s.rainShown), (.updateStar, 60, s.starShown),
   (.updateSweep, 2, s.sweepShown)]

/-- The frame rates of R109. -/
def legalRates : List Fps := [30, 10, 60, 2]

/-- The handshake a stalled block holds is one a command can make: bounds of R13, or a transfer of a fully valid frame
buffer at a rate of R109. -/
def State.waitLegal (s : State) : Prop :=
  match s.wait with
  | .none => True
  | .draw lo hi => lo.toNat < hi.toNat ∧ hi.toNat ≤ 256
  | .beat fps _ => fps ∈ legalRates ∧ s.fbAllValid = true

/-- What holds of the block between two steps. -/
structure State.Inv (s : State) : Prop where
  /-- FB has its canonical form and no cell outside 0..223 (R53). -/
  memory : Memory.wf s.fb = true
  /-- STATUS.FAULT_CODE is 0 iff STATUS.FAULT = 0 (R25). -/
  code : s.fault = true ↔ s.faultCode ≠ .none
  /-- FAULT_CMD holds 0 while STATUS.FAULT = 0 (R26). -/
  command : s.fault = false → s.faultCmd = 0
  /-- A faulted block is not busy (R260). -/
  halted : s.fault = true → s.busy = false
  /-- Between steps the block is busy only in reset or stalled on a device (R21, R41, R268). -/
  busyWhy : s.busy = true ↔ s.inReset = true ∨ s.wait ≠ .none
  /-- While `rst_n` = 0 no handshake is made (R20). -/
  quietInReset : s.inReset = true → s.wait = .none
  /-- No command word is held while no command runs. -/
  noCommand : s.busy = false → s.cmdWord = 0
  /-- PACE_CNT is idle outside the pacing wait (R38). -/
  paceIdle : s.paceCnt = none
  /-- No heat index exceeds 0xF0 (43_fire R176). -/
  heatBound : ∀ k : Cell, (entry s.heat k).toNat ≤ 0xF0
  /-- Every frame the sink received has a rate of R109. -/
  rates : ∀ f ∈ s.frames, f.fps ∈ legalRates
  /-- A handshake in progress is a legal one. -/
  handshake : s.waitLegal

/-- A run may end here normally: the block has not faulted (R261) and waits on no device (R268). -/
def State.normalEnd (s : State) : Bool := !s.fault && decide (s.wait = .none)

end Sys2Proof.Machine
end

