-- ==== Sys2Proof/Certificates/Slice0/Obligations.lean ====
section
/-! DEFINITION. The statements about the model, each a proposition for the provers; OBLIGATIONS.json lists them. -/

open Sys2Proof Sys2Proof.Machine

/-- Every well-formed command is read back from its word, with every operand at every value its field admits
(30_encoding R71 to R77). -/
def Obligations.DecodesEncodedCommand : Prop :=
  ∀ i : Instr, i.wellFormed = true → decode (encode i) = .ok i

/-- A word the decoder accepts is the word of the command it reads, and that command is well-formed: no two words decode
to one command and no bit of an accepted word is ignored (R77, R79). -/
def Obligations.AcceptedWordIsEncoding : Prop :=
  ∀ (w : Word) (i : Instr), decode w = .ok i → encode i = w ∧ i.wellFormed = true

/-- Words written out from the opcode map R77 and the syntax table R81 decode to their commands. -/
def Obligations.SpecWordsDecode : Prop :=
  decode 0x00000000 = .ok .nop ∧ decode 0x14000000 = .ok .initRain ∧ decode 0x28000000 = .ok .renderStar ∧
  decode 0x3C000000 = .ok .presentSweep ∧ decode 0x40000000 = .ok .advanceFire ∧ decode 0x54000000 = .ok .updateRain ∧
  decode 0x60102030 = .ok (.ldc 0x102030) ∧ decode 0x70000000 = .ok .fill ∧ decode 0x800000D3 = .ok (.set 3 13) ∧
  decode 0x900000DF = .ok (.get 15 13) ∧ decode 0xA0000020 = .ok (.interpFire 0x20) ∧
  decode 0xA1000088 = .ok (.interpHue 0x88)

/-- The decode order of R78: a word accepted by a ready block raises the first decode fault that applies, with fault
entry the only change, and otherwise executes the command whose word it is (R251, R254, R255). -/
def Obligations.DecodeRaisesFirstFault : Prop :=
  ∀ (s : State) (w : Word) (rest : List HostAct), s.host = .offer w :: rest → s.inReset = false → s.cmdReady = true →
    let a : State := { s with host := rest, busy := true, cmdWord := w }
    let op := (w.extractLsb' 28 4).toNat
    if 0xB ≤ op then step s = .next (faultEntry .illegalOpcode a)
    else if (op = 0x0 ∨ op = 0x7) ∧ w.extractLsb' 0 28 ≠ 0 then step s = .next (faultEntry .reservedBits a)
    else if (0x1 ≤ op ∧ op ≤ 0x5) ∧ w.extractLsb' 0 26 ≠ 0 then step s = .next (faultEntry .reservedBits a)
    else if op = 0x6 ∧ w.extractLsb' 24 4 ≠ 0 then step s = .next (faultEntry .reservedBits a)
    else if (op = 0x8 ∨ op = 0x9) ∧ w.extractLsb' 8 20 ≠ 0 then step s = .next (faultEntry .reservedBits a)
    else if op = 0xA ∧ (w.extractLsb' 25 3 ≠ 0 ∨ w.extractLsb' 8 16 ≠ 0) then step s = .next (faultEntry .reservedBits a)
    else if (op = 0x8 ∨ op = 0x9) ∧ 14 ≤ (w.extractLsb' 4 4).toNat then step s = .next (faultEntry .coordRange a)
    else ∃ i : Instr, encode i = w ∧ i.wellFormed = true ∧ step s = exec i a

/-- A step of a ready block that is offered the word of a command executes that command, the word taken from the port,
STATUS.BUSY = 1 and the word held for FAULT_CMD (R21, R36, R77). -/
def Obligations.StepExecutesDecodedCommand : Prop :=
  ∀ (s : State) (w : Word) (rest : List HostAct) (i : Instr), s.host = .offer w :: rest → s.inReset = false →
    s.cmdReady = true → decode w = .ok i → step s = exec i { s with host := rest, busy := true, cmdWord := w }

/-- A word offered while `cmd_ready` = 0 is not accepted and has no effect (R21). -/
def Obligations.OfferIgnoredWhileNotReady : Prop :=
  ∀ (s : State) (w : Word) (rest : List HostAct), s.host = .offer w :: rest → s.inReset = false → s.cmdReady = false →
    step s = .next { s with host := rest }

/-- After fault entry, whatever the host offers short of a reset and however long it does so, no command is accepted and
every register, the frame buffer and every effect state keep their values, on the ports too (60_exceptions R261). -/
def Obligations.FaultHoldsUntilReset : Prop :=
  ∀ s : State, s.fault = true → s.wait = .none → s.inReset = false → (∀ a ∈ s.host, a ≠ .resetLow) →
    ∀ n : Nat, ∃ t : State, core.run n s = .next t ∧ t = { s with host := s.host.drop n } ∧ t.cmdReady = false ∧
      t.status = s.status ∧ t.result = s.result ∧ t.faultCmdPort = s.faultCmdPort ∧ t.faultIrq = true

/-- The reset-value table of R40, HEAD as the table gives it: set exactly where the reset draw of that cell was 0. The
draws themselves (all 1) are the model's choice, log entry 4. -/
def Obligations.ResetStateHoldsTableValues : Prop :=
  State.reset.creg = 0 ∧ State.reset.busy = false ∧ State.reset.fault = false ∧ State.reset.faultCode.bits = 0 ∧
  State.reset.fbAllValid = false ∧ State.reset.status = 0 ∧ State.reset.faultCmd = 0 ∧
  (∀ k : Cell, entry State.reset.heat k = 0xF0) ∧
  (∀ k : Cell, entry State.reset.head k = true ↔ (State.reset.draws[k.val]?).map Draw.val = some 0) ∧
  (∀ k : Cell, entry State.reset.rint k = 0) ∧ (∀ k : Cell, entry State.reset.sint k = 0) ∧
  State.reset.sweep = 0 ∧ (∀ k < 224, Memory.valid State.reset.fb k = false) ∧ State.reset.paceCnt = none ∧
  State.reset.cmdReady = true ∧ State.reset.sinkOffer = none ∧ State.reset.rngReq = false

/-- An edge with `rst_n` = 0 puts every register at its value of R41, HEAD and FB apart, whatever the block was doing;
the histories and the other inputs are not the block's and stay. -/
def Obligations.ResetLowHoldsReset : Prop :=
  ∀ (s : State) (rest : List HostAct), s.host = .resetLow :: rest →
    ∃ t : State, step s = .next t ∧ t.creg = 0 ∧ t.busy = true ∧ t.fault = false ∧ t.faultCode.bits = 0 ∧
      t.fbAllValid = false ∧ t.status = 1 ∧ t.faultCmd = 0 ∧ (∀ k : Cell, entry t.heat k = 0xF0) ∧
      (∀ k : Cell, entry t.rint k = 0) ∧ (∀ k : Cell, entry t.sint k = 0) ∧ t.sweep = 0 ∧
      (∀ k < 224, Memory.valid t.fb k = false) ∧ t.paceCnt = none ∧ t.cmdReady = false ∧ t.rngReq = false ∧
      t.sinkOffer = none ∧ t.inReset = true ∧ t.host = rest ∧ t.rngIn = s.rngIn ∧ t.sinkIn = s.sinkIn ∧
      t.draws = s.draws ∧ t.frames = s.frames

/-- The reset sequence: at the first edge with `rst_n` = 1, with every answer in range, the four effects are constructed
with one draw per cell for HEAD and the block becomes ready (70_reset R280). -/
def Obligations.ResetSequenceConstructsEffects : Prop :=
  ∀ s : State, s.inReset = true → s.hostAct ≠ .resetLow → (∀ j < 224, s.answered j 0 8 = true) →
    ∃ h : Bank Bool, (∀ k : Cell, entry h k = true ↔ s.answerAt k.val = 0) ∧
      step s = .next { s with
        creg := 0, busy := false, fault := false, faultCode := .none, faultCmd := 0, cmdWord := 0, inReset := false,
        heat := fillBank 0xF0, head := h, rint := fillBank 0, sint := fillBank 0, sweep := 0, fb := [],
        host := s.host.tail, rngIn := s.rngIn.drop 224, draws := s.draws ++ s.drawsMade 224 0 8 }

/-- A reset draw out of range raises RNG_RANGE with FAULT_CMD = 0 and the block never becomes ready; HEAD is written for
the lower cells only (R280, 44_rain R192, 60_exceptions R253). -/
def Obligations.ResetSequenceFaultsOnBadDraw : Prop :=
  ∀ (s : State) (n : Cell) (v : Byte), s.inReset = true → s.hostAct ≠ .resetLow →
    (∀ j < n.val, s.answered j 0 8 = true) → s.replyAt n.val = .ack v → 8 ≤ v.toNat →
    ∃ t : State, step s = .next t ∧ t.fault = true ∧ t.faultCode = .rngRange ∧ t.faultCmd = 0 ∧ t.busy = false ∧
      t.cmdReady = false ∧ t.inReset = false ∧ t.draws = s.draws ++ s.drawsMade (n.val + 1) 0 8 ∧
      ∀ k : Cell, entry t.head k = if k.val < n.val then decide (s.answerAt k.val = 0) else entry s.head k

/-- Fault entry writes STATUS.FAULT, STATUS.FAULT_CODE, FAULT_CMD and STATUS.BUSY, drops the handshakes, and changes
nothing else (60_exceptions R260; the held command word is the model's field, log entry 7). -/
def Obligations.FaultEntryWritesOnlyFaultState : Prop :=
  ∀ (code : FaultCode) (s : State),
    let t := faultEntry code s
    t = { s with fault := true, faultCode := code, faultCmd := s.cmdWord, busy := false, wait := .none, cmdWord := 0 } ∧
    t.cmdReady = false ∧ t.faultIrq = true ∧ t.rngReq = false ∧ t.sinkOffer = none ∧
    t.status.extractLsb' 1 1 = 1 ∧ t.status.extractLsb' 2 4 = code.bits ∧ t.status.extractLsb' 0 1 = 0

/-- UNDEF_READ: GET of a cell not written and a frame transfer with STATUS.FB_ALL_VALID = 0 raise it with no other
change, and no UPDATE ever raises it (60_exceptions R252). -/
def Obligations.UndefReadIsPreciseAndNeverInUpdate : Prop :=
  (∀ (s : State) (row col : BitVec 4), col.toNat < 14 → Memory.valid s.fb (row.toNat + 16 * col.toNat) = false →
    exec (.get row col) s = .next (faultEntry .undefRead s)) ∧
  (∀ s : State, s.fbAllValid = false →
    exec .presentFire s = .next (faultEntry .undefRead s) ∧ exec .presentRain s = .next (faultEntry .undefRead s) ∧
    exec .presentStar s = .next (faultEntry .undefRead s) ∧ exec .presentSweep s = .next (faultEntry .undefRead s)) ∧
  ∀ (i : Instr) (s t : State), i ∈ [Instr.updateFire, .updateRain, .updateStar, .updateSweep] → exec i s = .next t →
    s.faultCode ≠ .undefRead → t.faultCode ≠ .undefRead

/-- A draw is recorded with its bounds and answer; in range the command goes on with it, out of range it raises
RNG_RANGE (R13, R39, R253). -/
def Obligations.DrawChecksItsAnswer : Prop :=
  ∀ (lo : Byte) (hi : BitVec 9) (s : State) (rest : Byte → State → Flow) (v : Byte), s.replyAt 0 = .ack v →
    let d : State := { s with rngIn := s.rngIn.tail, draws := s.draws ++ [⟨lo, hi, v⟩] }
    if lo.toNat ≤ v.toNat ∧ v.toNat < hi.toNat then withDraw lo hi s rest = rest v d
    else withDraw lo hi s rest = .halt (faultEntry .rngRange d)

/-- A draw that is never answered, whichever one it is, leaves the block busy and not ready, requesting that draw with its
bounds and with no fault raised; what the command did before it stands, and an UPDATE has sent its frame: for ADVANCE.FIRE
and UPDATE.FIRE, ADVANCE.RAIN and UPDATE.RAIN, INIT.RAIN, ADVANCE.STAR and UPDATE.STAR, and the reset sequence
(60_exceptions R268; R156, R280). -/
def Obligations.SilentSourceLeavesBlockBusy : Prop :=
  (∀ (s : State) (n : Nat) (made : List Draw) (lo : Byte) (hi : BitVec 9),
    let t := s.waitingForDraw n made lo hi
    t.busy = true ∧ t.cmdReady = false ∧ t.rngReq = true ∧ t.rngBounds = some (lo, hi) ∧ t.sinkOffer = none ∧
    t.fault = s.fault ∧ t.faultCode = s.faultCode ∧ t.faultCmd = s.faultCmd) ∧
  (∀ (s : State) (n : Col), (∀ j < n.val, s.answered j 0x20 0x90 = true) → s.replyAt n.val = .never →
    ∃ h : Bank Byte, FireSeededTo s n.val h ∧
      exec .advanceFire s =
        .next (State.waitingForDraw { s with heat := h } (n.val + 1) (s.drawsMade n.val 0x20 0x90) 0x20 0x90) ∧
      (s.nextSink = .takesFrame → ∃ u : State, Presented s u 30 s.fireShown ∧ exec .updateFire s =
        .next (State.waitingForDraw { u with heat := h } (n.val + 1) (s.drawsMade n.val 0x20 0x90) 0x20 0x90))) ∧
  (∀ (s : State) (n : Nat), n < 48 → (∀ j < n, s.answered j 0 224 = true) → s.replyAt n = .never →
    exec .advanceRain s =
      .next (State.waitingForDraw { s with head := s.movedHeads (n / 2) } (n + 1) (s.drawsMade n 0 224) 0 224) ∧
    (s.nextSink = .takesFrame → ∃ u : State, Presented s u 10 s.rainShown ∧ exec .updateRain s =
      .next (State.waitingForDraw { u with head := s.movedHeads (n / 2) } (n + 1) (s.drawsMade n 0 224) 0 224))) ∧
  (∀ (s : State) (n : Cell), (∀ j < n.val, s.answered j 0 8 = true) → s.replyAt n.val = .never →
    ∃ h : Bank Bool, HeadsDrawnTo s n.val h ∧ exec .initRain s =
      .next (State.waitingForDraw { s with head := h, rint := fillBank 0 } (n.val + 1) (s.drawsMade n.val 0 8) 0 8)) ∧
  (∀ (s : State) (n : Fin 3), s.starReaches n → s.replyAt n.val = .never →
    ∃ b : Bank Byte, StarFaded s b ∧
      exec .advanceStar s = .next (State.waitingForDraw { s with sint := b } (n.val + 1) (s.starMade n.val)
        (starBounds n).1 (starBounds n).2) ∧
      (s.nextSink = .takesFrame → ∃ u : State, Presented s u 60 s.starShown ∧
        exec .updateStar s = .next (State.waitingForDraw { u with sint := b } (n.val + 1) (s.starMade n.val)
          (starBounds n).1 (starBounds n).2))) ∧
  ∀ (s : State) (n : Cell), s.inReset = true → s.hostAct ≠ .resetLow → (∀ j < n.val, s.answered j 0 8 = true) →
    s.replyAt n.val = .never → ∃ h : Bank Bool, HeadsDrawnTo s n.val h ∧
      step s = .next (State.waitingForDraw { s with
        creg := 0, fault := false, faultCode := .none, faultCmd := 0, cmdWord := 0, inReset := false, fb := [],
        heat := fillBank 0xF0, head := h, rint := fillBank 0, host := s.host.tail }
        (n.val + 1) (s.drawsMade n.val 0 8) 0 8)

/-- A block stalled on a device takes no command: every step short of a reset leaves it as it is, and when the host does
nothing more it has no step (40_frame_buffer R111, 60_exceptions R268; the model's two fault names, log entry 8). -/
def Obligations.StallEndsOnlyByReset : Prop :=
  ∀ s : State, s.busy = true → s.wait ≠ .none → s.inReset = false → (∀ a ∈ s.host, a ≠ .resetLow) →
    (∀ n ≤ s.host.length, core.run n s = .next { s with host := s.host.drop n }) ∧
    (s.rngReq = true → core.run (s.host.length + 1) s = .fault .stuckOnRandomSource) ∧
    (s.rngReq = false → core.run (s.host.length + 1) s = .fault .stuckOnDisplaySink)

/-- The commands that only write registers or fixed values complete in every state: NOP changes nothing but STATUS.BUSY,
LDC loads CREG, INIT.FIRE, INIT.STAR and INIT.SWEEP set their initial state, ADVANCE.SWEEP increments with wraparound;
each changes nothing else (R101, R102, R171, R211, R231, R233). -/
def Obligations.RegisterCommandsComplete : Prop :=
  ∀ (s : State) (v : Colour),
    exec .nop s = .next { s with busy := false, cmdWord := 0 } ∧
    exec (.ldc v) s = .next { s with creg := v, busy := false, cmdWord := 0 } ∧
    exec .initFire s = .next { s with heat := Vector.replicate 224 0xF0, busy := false, cmdWord := 0 } ∧
    exec .initStar s = .next { s with sint := Vector.replicate 224 0, busy := false, cmdWord := 0 } ∧
    exec .initSweep s = .next { s with sweep := 0, busy := false, cmdWord := 0 } ∧
    exec .advanceSweep s = .next { s with sweep := s.sweep + 1, busy := false, cmdWord := 0 }

/-- FILL writes CREG into every cell, makes every cell valid, and changes nothing else (R103). -/
def Obligations.FillWritesEveryCell : Prop :=
  ∀ s : State, ∃ m : Memory,
    exec .fill s = .next { s with fb := m, busy := false, cmdWord := 0 } ∧
    (∀ a < 224, Memory.read m a = some s.creg) ∧ (∀ a, 224 ≤ a → Memory.read m a = Memory.read s.fb a) ∧
    ({ s with fb := m } : State).fbAllValid = true

/-- SET writes CREG into the one cell of its fields and no other cell of the buffer, and changes no register (R104); of a
column 14 or 15, SET and GET raise COORD_RANGE and change nothing else (R251; the decode raises it already). -/
def Obligations.SetWritesOneCell : Prop :=
  (∀ (s : State) (row col : BitVec 4), col.toNat < 14 → ∃ m : Memory,
    exec (.set row col) s = .next { s with fb := m, busy := false, cmdWord := 0 } ∧
    ∀ a, Memory.read m a = if a = row.toNat + 16 * col.toNat then some s.creg else Memory.read s.fb a) ∧
  ∀ (s : State) (row col : BitVec 4), 14 ≤ col.toNat →
    exec (.set row col) s = .next (faultEntry .coordRange s) ∧ exec (.get row col) s = .next (faultEntry .coordRange s)

/-- GET of a written cell loads its colour into CREG and changes nothing else (R105). -/
def Obligations.GetLoadsOneCell : Prop :=
  ∀ (s : State) (row col : BitVec 4) (v : Colour), col.toNat < 14 →
    Memory.read s.fb (row.toNat + 16 * col.toNat) = some v →
    exec (.get row col) s = .next { s with creg := v, busy := false, cmdWord := 0 }

/-- GET of the cell SET wrote returns the colour SET wrote, whatever CREG held in between, and GET of another cell
returns what it held before (R104, R105). -/
def Obligations.SetThenGetReturnsColour : Prop :=
  ∀ (s : State) (r c r' c' : BitVec 4) (v u x : Colour), c.toNat < 14 → c'.toNat < 14 →
    (∃ t : State, execAll [.ldc v, .set r c, .ldc u, .get r c] s = .next t ∧ t.creg = v) ∧
    ((r, c) ≠ (r', c') → Memory.read s.fb (r'.toNat + 16 * c'.toNat) = some x →
      ∃ t : State, execAll [.ldc v, .set r c, .ldc u, .get r' c'] s = .next t ∧ t.creg = x)

/-- Each RENDER writes its effect's colour of every cell, with the colours of R170, R191, R210 and R230 written out, makes
every cell valid, and changes nothing else (R106, R172, R193, R212, R232). -/
def Obligations.RenderWritesEffectColours : Prop :=
  ∀ s : State, ∃ fire rain star sweep : Memory,
    exec .renderFire s = .next { s with fb := fire, busy := false, cmdWord := 0 } ∧
    Rendered s (fun r c => interp Config.firePalette (entry s.heat (idx r c))) fire ∧
    exec .renderRain s = .next { s with fb := rain, busy := false, cmdWord := 0 } ∧
    Rendered s (fun r c => rgb (entry s.rint (idx r c) >>> 3)
      (BitVec.ofNat 8 (3 * (entry s.rint (idx r c)).toNat / 4)) (entry s.rint (idx r c) >>> 3)) rain ∧
    exec .renderStar s = .next { s with fb := star, busy := false, cmdWord := 0 } ∧
    Rendered s (fun r c => BitVec.ofNat 24 ((entry s.sint (idx r c)).toNat * 0x010101)) star ∧
    exec .renderSweep s = .next { s with fb := sweep, busy := false, cmdWord := 0 } ∧
    Rendered s (fun _ _ => interp Config.huePalette s.sweep) sweep ∧
    ∀ m ∈ [fire, rain, star, sweep], ({ s with fb := m } : State).fbAllValid = true

/-- With every cell valid and a sink that takes the frame, each PRESENT adds one frame to the history, at its rate and
with the colours of FB in linear-index order, and changes no register and no memory (R109 to R116). -/
def Obligations.PresentDeliversFrame : Prop :=
  ∀ (s : State) (i : Instr) (fps : Fps),
    (i, fps) ∈ [(Instr.presentFire, (30 : Fps)), (.presentRain, 10), (.presentStar, 60), (.presentSweep, 2)] →
    s.fbAllValid = true → s.nextSink = .takesFrame →
    ∃ f : Frame, exec i s = .next { s with sinkIn := s.sinkIn.tail, frames := s.frames ++ [f], busy := false, cmdWord := 0 } ∧
      f.fps = fps ∧ ∀ k : Cell, Memory.read s.fb k.val = some (entry f.cells k)

/-- A frame goes out as exactly 224 beats k = 0, 1, ..., 223, each with the colour of cell k, `sink_last` on the last
alone and `sink_fps` constant (R22, R55, R112). -/
def Obligations.FrameIsTwoHundredTwentyFourBeats : Prop :=
  ∀ f : Frame, f.beats.length = 224 ∧
    ∀ k : Cell, f.beats[k.val]? = some ⟨k, entry f.cells k, decide (k.val = 223), f.fps⟩

/-- A sink that never takes beat k holds the block busy on that beat, with the k beats before it taken, no frame in the
history and no fault: in PRESENT, and in UPDATE, where FB holds the rendered colours and the advance has not begun (R111,
R156, R268). -/
def Obligations.StalledSinkHoldsBeat : Prop :=
  (∀ (s : State) (i : Instr) (fps : Fps) (k : Cell),
    (i, fps) ∈ [(Instr.presentFire, (30 : Fps)), (.presentRain, 10), (.presentStar, 60), (.presentSweep, 2)] →
    s.fbAllValid = true → s.nextSink = .stopsAt k →
    ∃ (t : State) (c : Colour), exec i s = .next t ∧
      t = { s with sinkIn := s.sinkIn.tail, wait := .beat fps k, busy := true } ∧ Memory.read s.fb k.val = some c ∧
      t.sinkOffer = some ⟨k, c, decide (k.val = 223), fps⟩ ∧ t.beatsTaken.length = k.val ∧ t.cmdReady = false) ∧
  ∀ (s : State) (i : Instr) (fps : Fps) (colour : Row → Col → Colour) (k : Cell), (i, fps, colour) ∈ s.updateForms →
    s.nextSink = .stopsAt k →
    ∃ (t : State) (m : Memory), exec i s = .next t ∧ Rendered s colour m ∧
      t = { s with fb := m, sinkIn := s.sinkIn.tail, wait := .beat fps k, busy := true } ∧
      t.sinkOffer = some ⟨k, colour (rowOf k) (colOf k), decide (k.val = 223), fps⟩ ∧ t.beatsTaken.length = k.val ∧
      t.cmdReady = false

/-- The layout of STATUS (R25): BUSY in bit 0, FAULT in bit 1, FAULT_CODE in bits 5..2, FB_ALL_VALID in bit 6 as the
conjunction of all FB_VALID bits, zeros above. -/
def Obligations.StatusLayout : Prop :=
  ∀ s : State,
    s.status.getLsbD 0 = s.busy ∧ s.status.getLsbD 1 = s.fault ∧ s.status.extractLsb' 2 4 = s.faultCode.bits ∧
    (s.status.getLsbD 6 = true ↔ ∀ k < 224, Memory.valid s.fb k = true) ∧ s.status.extractLsb' 7 9 = 0

/-- The traversal order of a whole-buffer fill has no effect: writing every cell once in any order gives the same frame
buffer as FILL's and RENDER's row-major traversal (R54, R106). -/
def Obligations.FillOrderHasNoEffect : Prop :=
  ∀ (colour : Row → Col → Colour) (m : Memory) (order : List Cell), Memory.wf m = true → order.Perm linear →
    order.foldl (fun m k => Memory.write m k.val (colour (rowOf k) (colOf k))) m = fillFrom colour m

/-- Issuing LDC, FILL, SET, GET, an INTERP, INIT.FIRE, INIT.STAR, INIT.SWEEP or a RENDER twice in a row leaves the same
state as issuing it once (20_memory R58); a GET that faults is not issued again, since the block has stopped. -/
def Obligations.RepeatedCommandChangesNothing : Prop :=
  ∀ (i : Instr) (s t : State), Memory.wf s.fb = true →
    (match i with
     | .ldc _ | .fill | .set _ _ | .get _ _ | .interpFire _ | .interpHue _ | .initFire | .initStar | .initSweep
     | .renderFire | .renderRain | .renderStar | .renderSweep => True
     | _ => False) →
    exec i s = .next t → t.fault = false → execAll [i, i] s = .next t

/-- Which commands may change which state: every command leaves alone the registers, effect states, frame buffer and
histories that no rule lets it write (R24, R27 to R33, R107, R150, R152), and those that cannot fault change no fault
register. -/
def Obligations.CommandsWriteOnlyTheirState : Prop :=
  ∀ (i : Instr) (s t : State), exec i s = .next t →
    (match i with | .ldc _ | .get _ _ | .interpFire _ | .interpHue _ => True | _ => t.creg = s.creg) ∧
    (match i with | .initFire | .advanceFire | .updateFire => True | _ => t.heat = s.heat) ∧
    (match i with | .initRain | .advanceRain | .updateRain => True | _ => t.head = s.head ∧ t.rint = s.rint) ∧
    (match i with | .initStar | .advanceStar | .updateStar => True | _ => t.sint = s.sint) ∧
    (match i with | .initSweep | .advanceSweep | .updateSweep => True | _ => t.sweep = s.sweep) ∧
    (match i with
     | .fill | .set _ _ | .renderFire | .renderRain | .renderStar | .renderSweep
     | .updateFire | .updateRain | .updateStar | .updateSweep => True
     | _ => ∀ a, Memory.read t.fb a = Memory.read s.fb a) ∧
    (match i with
     | .presentFire | .presentRain | .presentStar | .presentSweep
     | .updateFire | .updateRain | .updateStar | .updateSweep => True
     | _ => t.frames = s.frames ∧ t.sinkIn = s.sinkIn) ∧
    (match i with
     | .initRain | .advanceFire | .advanceRain | .advanceStar | .updateFire | .updateRain | .updateStar => True
     | _ => t.draws = s.draws ∧ t.rngIn = s.rngIn) ∧
    (match i with
     | .nop | .ldc _ | .fill | .initFire | .initStar | .initSweep | .renderFire | .renderRain | .renderStar
     | .renderSweep | .advanceSweep | .interpFire _ | .interpHue _ =>
       t.fault = s.fault ∧ t.faultCode = s.faultCode ∧ t.faultCmd = s.faultCmd
     | _ => True) ∧
    (match i with | .updateFire | .updateRain | .updateStar | .updateSweep => True | _ => t.paceCnt = s.paceCnt) ∧
    t.host = s.host ∧ t.inReset = s.inReset

/-- No command but FILL and SET reads CREG: what every other command does is the same whatever CREG holds, and those
that do not load it leave it as it was (R24). -/
def Obligations.OnlyFillAndSetReadCreg : Prop :=
  ∀ (i : Instr) (s t : State) (v : Colour), i ≠ .fill → (∀ r c, i ≠ .set r c) → exec i s = .next t →
    ∃ t' : State, exec i { s with creg := v } = .next t' ∧ { t' with creg := t.creg } = t ∧
      (t'.creg = t.creg ∨ (t.creg = s.creg ∧ t'.creg = v))

/-- `idx` is a bijection between the valid coordinates and the 224 indices, with inverse k mod 16 and k >> 4 (R51). -/
def Obligations.CellIndexIsBijection : Prop :=
  (∀ (r : Row) (c : Col), (idx r c).val = r.val + 16 * c.val ∧ (idx r c).val % 16 = r.val ∧ (idx r c).val / 16 = c.val) ∧
  (∀ k : Cell, ∃! rc : Row × Col, idx rc.1 rc.2 = k) ∧
  ∀ k : Cell, (rowOf k).val = k.val % 16 ∧ (colOf k).val = k.val / 16 ∧ idx (rowOf k) (colOf k) = k

/-- Stop exactness: an index on a stop gives that stop's colour, for every palette (41_interpolator R134). -/
def Obligations.InterpExactOnStops : Prop :=
  ∀ (P : Palette) (s : Fin 16), interp P (BitVec.ofNat 8 (16 * s.val)) = P[s.val]

/-- Between stops the colour is the channel-wise blend of the two bracketing stops, stop 0 after stop 15, computed on
naturals with no overflow (R132, R133). -/
def Obligations.InterpBlendsBracketingStops : Prop :=
  ∀ (P : Palette) (i : Byte), i.toNat % 16 ≠ 0 →
    ∀ ch ∈ [red, green, blue],
      (ch (interp P i)).toNat =
        (ch (P[i.toNat / 16]'(by have := i.isLt; omega))).toNat * (256 - 16 * (i.toNat % 16)) / 256 +
        (ch (P[(i.toNat / 16 + 1) % 16]'(by omega))).toNat * (16 * (i.toNat % 16) + 1) / 256

/-- A blended channel never exceeds the larger stop and falls at most 1 below the smaller (R135 (a)). -/
def Obligations.BlendStaysBetweenStops : Prop :=
  ∀ (c1 c2 : Colour) (f : BitVec 4), f ≠ 0 → ∀ ch ∈ [red, green, blue],
    min (ch c1).toNat (ch c2).toNat - 1 ≤ (ch (blend c1 c2 f)).toNat ∧
    (ch (blend c1 c2 f)).toNat ≤ max (ch c1).toNat (ch c2).toNat

/-- INTERP.FIRE and INTERP.HUE load the interpolated colour into CREG and change nothing else; the values of R137 for the
hue palette (R136, R137). -/
def Obligations.InterpCommandsLoadColour : Prop :=
  (∀ (s : State) (i : Byte),
    exec (.interpFire i) s = .next { s with creg := interp Config.firePalette i, busy := false, cmdWord := 0 } ∧
    exec (.interpHue i) s = .next { s with creg := interp Config.huePalette i, busy := false, cmdWord := 0 }) ∧
  interp Config.huePalette 0 = 0xFF0000 ∧ interp Config.huePalette 255 = 0xFD0002 ∧
  interp Config.huePalette 0x88 = 0x00807F

/-- The rise in closed form, once and n times (43_fire R174). -/
def Obligations.RiseClosedForm : Prop :=
  (∀ x : Byte, satSub8 (satAdd8 x 0x1F) 0x0F = rise hardware x ∧ (rise hardware x).toNat = min (x.toNat + 16) 0xF0) ∧
  ∀ (n : Nat) (x : Byte), n ≠ 0 → ((rise hardware)^[n] x).toNat = min (x.toNat + 16 * n) 0xF0

/-- Under any parameters, the in-place sweep from row 15 down to row 1 equals the simultaneous update of every row from the row below, and
leaves row 0 (R175, R287). -/
def Obligations.FireSweepIsSimultaneous : Prop :=
  ∀ (p : Config.Parameters) (heat : Bank Byte) (c : Col),
    (∀ below : Fin 15, entry (riseSweep p heat) (idx below.succ c) = rise p (entry heat (idx below.castSucc c))) ∧
    entry (riseSweep p heat) (idx 0 c) = entry heat (idx 0 c)

/-- With 14 answers in [0x20, 0x90), ADVANCE.FIRE raises rows 1 to 15 from the rows below, puts the answers into row 0 in
column order, makes exactly those 14 draws and changes nothing else (R173). -/
def Obligations.AdvanceFireResult : Prop :=
  ∀ s : State, (∀ j < 14, s.answered j 0x20 0x90 = true) → ∃ h : Bank Byte, FireAdvanced s h ∧
    exec .advanceFire s = .next { s with
      heat := h, rngIn := s.rngIn.drop 14, draws := s.draws ++ s.drawsMade 14 0x20 0x90, busy := false, cmdWord := 0 }

/-- A seed out of range in column n raises RNG_RANGE with rows 1 to 15 and the lower columns of row 0 written, the rest of
row 0 not; in UPDATE.FIRE the frame has gone out before (R157, R173, R253, R260). -/
def Obligations.AdvanceFireStopsAtBadSeed : Prop :=
  ∀ (s : State) (n : Col) (v : Byte), (∀ j < n.val, s.answered j 0x20 0x90 = true) → s.replyAt n.val = .ack v →
    (v.toNat < 0x20 ∨ 0x90 ≤ v.toNat) → ∃ h : Bank Byte, FireSeededTo s n.val h ∧
      exec .advanceFire s =
        .next (State.stoppedAtDraw { s with heat := h } (n.val + 1) (s.drawsMade (n.val + 1) 0x20 0x90)) ∧
      (s.nextSink = .takesFrame → ∃ u : State, Presented s u 30 s.fireShown ∧ exec .updateFire s =
        .next (State.stoppedAtDraw { u with heat := h } (n.val + 1) (s.drawsMade (n.val + 1) 0x20 0x90)))

/-- The closed form of n Fire advances, seeds in range, from the initial state: row r of column c holds the seed of that column drawn r
advances before the last, risen r times, or 0xF0 where there was none yet; with the ranges that follow (R176). -/
def Obligations.FireHeatClosedForm : Prop :=
  ∀ (s : State) (n : Nat), n ≠ 0 → (∀ k : Cell, entry s.heat k = 0xF0) → (∀ j < 14 * n, s.answered j 0x20 0x90 = true) →
    ∃ t : State, execAll (List.replicate n .advanceFire) s = .next t ∧
      (∀ (r : Row) (c : Col), (entry t.heat (idx r c)).toNat =
        if r.val < n then min ((s.answerAt (14 * (n - r.val - 1) + c.val)).toNat + 16 * r.val) 0xF0 else 0xF0) ∧
      (∀ c : Col, 0x20 ≤ (entry t.heat (idx 0 c)).toNat ∧ (entry t.heat (idx 0 c)).toNat < 0x90) ∧
      ∀ (r : Row) (c : Col), min (0x20 + 16 * r.val) 0xF0 ≤ (entry t.heat (idx r c)).toNat ∧
        (entry t.heat (idx r c)).toNat ≤ 0xF0

/-- With 224 answers in [0, 8), INIT.RAIN clears every intensity and makes a cell a head exactly where its draw, in
linear-index order, is 0; it changes nothing else. An answer of 8 or more for cell n raises RNG_RANGE with the intensities
cleared and HEAD written for the lower cells only (44_rain R192, R253, R260). -/
def Obligations.InitRainDrawsHeads : Prop :=
  (∀ s : State, (∀ j < 224, s.answered j 0 8 = true) → ∃ h : Bank Bool,
    (∀ k : Cell, entry h k = true ↔ s.answerAt k.val = 0) ∧
    exec .initRain s = .next { s with
      head := h, rint := fillBank 0, rngIn := s.rngIn.drop 224, draws := s.draws ++ s.drawsMade 224 0 8,
      busy := false, cmdWord := 0 }) ∧
  ∀ (s : State) (n : Cell) (v : Byte), (∀ j < n.val, s.answered j 0 8 = true) → s.replyAt n.val = .ack v →
    8 ≤ v.toNat → ∃ h : Bank Bool, HeadsDrawnTo s n.val h ∧
      exec .initRain s = .next
        (State.stoppedAtDraw { s with head := h, rint := fillBank 0 } (n.val + 1) (s.drawsMade (n.val + 1) 0 8))

/-- With 48 answers in [0, 224), ADVANCE.RAIN makes its 24 attempts one after another, fades, rotates and lights, in that
order, and changes nothing else (R194, R195, R198). -/
def Obligations.AdvanceRainResult : Prop :=
  ∀ s : State, (∀ j < 48, s.answered j 0 224 = true) → ∃ (h : Bank Bool) (i : Bank Byte), RainAdvanced s h i ∧
    exec .advanceRain s = .next { s with
      head := h, rint := i, rngIn := s.rngIn.drop 48, draws := s.draws ++ s.drawsMade 48 0 224,
      busy := false, cmdWord := 0 }

/-- An answer of 224 or more in draw n of ADVANCE.RAIN raises RNG_RANGE: the attempts before it stand and the fade, the
rotation and the lighting have not run; in UPDATE.RAIN the frame has gone out before (R158, R194, R253, R260). -/
def Obligations.AdvanceRainStopsAtBadDraw : Prop :=
  ∀ (s : State) (n : Nat) (v : Byte), n < 48 → (∀ j < n, s.answered j 0 224 = true) → s.replyAt n = .ack v →
    224 ≤ v.toNat →
    exec .advanceRain s =
      .next (State.stoppedAtDraw { s with head := s.movedHeads (n / 2) } (n + 1) (s.drawsMade (n + 1) 0 224)) ∧
    (s.nextSink = .takesFrame → ∃ u : State, Presented s u 10 s.rainShown ∧ exec .updateRain s =
      .next (State.stoppedAtDraw { u with head := s.movedHeads (n / 2) } (n + 1) (s.drawsMade (n + 1) 0 224)))

/-- The number of heads is the same before and after ADVANCE.RAIN, whatever the draws, also where it faults or stalls
(R196). -/
def Obligations.AdvanceRainKeepsHeadCount : Prop :=
  ∀ s t : State, exec .advanceRain s = .next t → headCount t.head = headCount s.head

/-- The rotation moves every head down one row and from row 0 to row 15, and sixteen of them give the map back (R197). -/
def Obligations.RotationMovesHeadsDown : Prop :=
  (∀ (h : Bank Bool) (r : Row) (c : Col), entry (rotateHeads h) (idx r c) = entry h (idx (r + 1) c)) ∧
  ∀ h : Bank Bool, rotateHeads^[16] h = h

/-- With no heads nothing lights: n advances with answers in range keep the map empty and lower every intensity by 48 n, to
0 from the sixth on (R199). -/
def Obligations.NoHeadsFadeToBlack : Prop :=
  ∀ (s : State) (n : Nat), (∀ k : Cell, entry s.head k = false) → (∀ j < 48 * n, s.answered j 0 224 = true) →
    ∃ t : State, execAll (List.replicate n .advanceRain) s = .next t ∧ (∀ k : Cell, entry t.head k = false) ∧
      (∀ k : Cell, (entry t.rint k).toNat = (entry s.rint k).toNat - 48 * n) ∧
      (6 ≤ n → ∀ k : Cell, entry t.rint k = 0)

/-- With its draws answered in range, ADVANCE.STAR fades every cell by 2 and then, where the first answer is 0, sets the
drawn cell to the drawn value; one draw or three, and nothing else changes (45_starfield R213). -/
def Obligations.AdvanceStarResult : Prop :=
  ∀ s : State, s.starAnswered = true → ∃ b : Bank Byte, StarAdvanced s b ∧
    exec .advanceStar s = .next { s with
      sint := b, rngIn := s.rngIn.drop s.starDraws.length, draws := s.draws ++ s.starDraws, busy := false, cmdWord := 0 }

/-- In any ADVANCE.STAR, also one that faults or stalls, every cell falls by 2 or to 0, but for the spawned cell, which takes
the drawn value: the cell of the second answer, and only where the first answer is 0 and the draws are answered in range
(R213, R214). An answer out of range, in whichever draw, raises RNG_RANGE with the fade run and no cell spawned; in
UPDATE.STAR the frame has gone out before (R159, R253, R260). -/
def Obligations.AdvanceStarBrightensAtMostOneCell : Prop :=
  (∀ s t : State, exec .advanceStar s = .next t → ∀ j : Cell,
    if s.starAnswered = true ∧ s.answerAt 0 = 0 ∧ j = cellOfByte (s.answerAt 1) then entry t.sint j = s.answerAt 2
    else (entry t.sint j).toNat = (entry s.sint j).toNat - 2) ∧
  ∀ (s : State) (n : Fin 3) (v : Byte), s.starReaches n → s.replyAt n.val = .ack v →
    (v.toNat < (starBounds n).1.toNat ∨ (starBounds n).2.toNat ≤ v.toNat) → ∃ b : Bank Byte, StarFaded s b ∧
      exec .advanceStar s = .next (State.stoppedAtDraw { s with sint := b } (n.val + 1) (s.starMade (n.val + 1))) ∧
      (s.nextSink = .takesFrame → ∃ u : State, Presented s u 60 s.starShown ∧ exec .updateStar s =
        .next (State.stoppedAtDraw { u with sint := b } (n.val + 1) (s.starMade (n.val + 1))))

/-- Without a spawn every intensity falls by 2 each advance until 0: after n advances whose spawn draws are 1, 2 or 3 it
is the old value less 2 n (R213, R214, R215). -/
def Obligations.StarFadesTwoEachAdvance : Prop :=
  ∀ (s : State) (n : Nat), (∀ j < n, s.answered j 1 4 = true) →
    ∃ t : State, execAll (List.replicate n .advanceStar) s = .next t ∧
      ∀ k : Cell, (entry t.sint k).toNat = (entry s.sint k).toNat - 2 * n

/-- After n ADVANCE.SWEEP from counter 0 the counter is n mod 256, so 256 give 0 again and no smaller positive number
does (46_sweep R234). -/
def Obligations.SweepHasPeriod256 : Prop :=
  (∀ (s : State) (n : Nat), s.sweep = 0 →
    ∃ t : State, execAll (List.replicate n .advanceSweep) s = .next t ∧ t.sweep.toNat = n % 256) ∧
  ∀ (s t : State) (n : Nat), s.sweep = 0 → 0 < n → n < 256 →
    execAll (List.replicate n .advanceSweep) s = .next t → t.sweep ≠ 0

/-- UPDATE.FIRE, with a sink that takes the frame and answers in range: one frame at 30 fps of the state before the
advance, FB holding it, and then ADVANCE.FIRE's effect (42_effect_control R153, R156, R157). -/
def Obligations.UpdateFireResult : Prop :=
  ∀ s : State, s.nextSink = .takesFrame → (∀ j < 14, s.answered j 0x20 0x90 = true) →
    ∃ (m : Memory) (f : Frame) (h : Bank Byte),
      Rendered s (fun r c => interp Config.firePalette (entry s.heat (idx r c))) m ∧
      Delivers f 30 (fun r c => interp Config.firePalette (entry s.heat (idx r c))) ∧ FireAdvanced s h ∧
      exec .updateFire s = .next { s with
        fb := m, frames := s.frames ++ [f], sinkIn := s.sinkIn.tail, paceCnt := none, heat := h,
        rngIn := s.rngIn.drop 14, draws := s.draws ++ s.drawsMade 14 0x20 0x90, busy := false, cmdWord := 0 }

/-- UPDATE.RAIN likewise: one frame at 10 fps of the intensities before the advance, then ADVANCE.RAIN's effect (R156,
R158). -/
def Obligations.UpdateRainResult : Prop :=
  ∀ s : State, s.nextSink = .takesFrame → (∀ j < 48, s.answered j 0 224 = true) →
    ∃ (m : Memory) (f : Frame) (h : Bank Bool) (i : Bank Byte),
      Rendered s (fun r c => rainColour (entry s.rint (idx r c))) m ∧
      Delivers f 10 (fun r c => rainColour (entry s.rint (idx r c))) ∧ RainAdvanced s h i ∧
      exec .updateRain s = .next { s with
        fb := m, frames := s.frames ++ [f], sinkIn := s.sinkIn.tail, paceCnt := none, head := h, rint := i,
        rngIn := s.rngIn.drop 48, draws := s.draws ++ s.drawsMade 48 0 224, busy := false, cmdWord := 0 }

/-- UPDATE.STAR likewise: one frame at 60 fps of the intensities before the advance, then ADVANCE.STAR's effect (R156,
R159). -/
def Obligations.UpdateStarResult : Prop :=
  ∀ s : State, s.nextSink = .takesFrame → s.starAnswered = true →
    ∃ (m : Memory) (f : Frame) (b : Bank Byte),
      Rendered s (fun r c => rgb (entry s.sint (idx r c)) (entry s.sint (idx r c)) (entry s.sint (idx r c))) m ∧
      Delivers f 60 (fun r c => rgb (entry s.sint (idx r c)) (entry s.sint (idx r c)) (entry s.sint (idx r c))) ∧
      StarAdvanced s b ∧
      exec .updateStar s = .next { s with
        fb := m, frames := s.frames ++ [f], sinkIn := s.sinkIn.tail, paceCnt := none, sint := b,
        rngIn := s.rngIn.drop s.starDraws.length, draws := s.draws ++ s.starDraws, busy := false, cmdWord := 0 }

/-- UPDATE.SWEEP likewise: one frame at 2 fps of the counter's colour before the advance, then the increment (R156,
R160). -/
def Obligations.UpdateSweepResult : Prop :=
  ∀ s : State, s.nextSink = .takesFrame → ∃ (m : Memory) (f : Frame),
    Rendered s (fun _ _ => interp Config.huePalette s.sweep) m ∧
    Delivers f 2 (fun _ _ => interp Config.huePalette s.sweep) ∧
    exec .updateSweep s = .next { s with
      fb := m, frames := s.frames ++ [f], sinkIn := s.sinkIn.tail, paceCnt := none, sweep := s.sweep + 1,
      busy := false, cmdWord := 0 }

/-- UPDATE equals RENDER, PRESENT, ADVANCE issued back to back, in all state and in both histories, for each effect, from
every state with PACE_CNT idle where the sink takes the frame and the draws end with no fault and no stall (R82, R156). -/
def Obligations.UpdateEqualsSplitCommands : Prop :=
  ∀ (s t : State) (u render present advance : Instr),
    (u, render, present, advance) ∈ [(Instr.updateFire, Instr.renderFire, Instr.presentFire, Instr.advanceFire),
      (.updateRain, .renderRain, .presentRain, .advanceRain), (.updateStar, .renderStar, .presentStar, .advanceStar),
      (.updateSweep, .renderSweep, .presentSweep, .advanceSweep)] →
    s.paceCnt = none → s.nextSink = .takesFrame → execAll [render, present, advance] s = .next t → t.fault = false →
    t.busy = false → exec u s = .next t

/-- The frames of the sweep: n UPDATE.SWEEP from counter 0, to a sink with no reply listed, which by the model's choice
(log entry 3) takes every frame, deliver n frames at 2 fps, the m-th with every cell Interp(HUE_PAL, (m - 1) mod 256)
(46_sweep R235). -/
def Obligations.SweepFramesCycleThroughPalette : Prop :=
  ∀ (s : State) (n : Nat), s.sweep = 0 → s.sinkIn = [] →
    ∃ t : State, execAll (List.replicate n .updateSweep) s = .next t ∧
      t.frames = s.frames ++
        (List.range n).map fun m => ⟨2, fillBank (interp Config.huePalette (BitVec.ofNat 8 (m % 256)))⟩

/-- Every step keeps the invariant of the block: canonical frame buffer, STATUS and FAULT_CMD consistent, the reasons for
being busy, PACE_CNT idle, no heat index above 0xF0, legal frame rates, legal handshakes. -/
def Obligations.StepKeepsInvariant : Prop :=
  ∀ s t : State, s.Inv → step s = .next t → t.Inv

/-- The reset state meets the invariant of the block. -/
def Obligations.ResetMeetsInvariant : Prop := State.reset.Inv

/-- No step takes anything out of the two histories, and none adds more than one frame (R39, R156). -/
def Obligations.HistoriesOnlyGrow : Prop :=
  ∀ s t : State, step s = .next t →
    s.draws <+: t.draws ∧ s.frames <+: t.frames ∧ t.frames.length ≤ s.frames.length + 1

/-- The assembler never emits a word the block would not decode: every word of an assembled line is the word of a
well-formed command (30_encoding R81, R82). -/
def Obligations.AssemblerEmitsLegalWords : Prop :=
  ∀ (line : List Char) (ws : List Word), assembleLine line = some ws →
    ∀ w ∈ ws, ∃ i : Instr, decode w = .ok i ∧ encode i = w ∧ i.wellFormed = true
end

