-- ==== Sys2Proof/Laws/Bank.lean ====
section
/-! SUPPORT. The laws of the effect arrays and of cell addressing. -/

namespace Sys2Proof.Machine

theorem entry_put {α : Type} (b : Bank α) (k j : Cell) (v : α) : entry (put b k v) j = if j = k then v else entry b j := by
  simp only [entry, put, Vector.getElem_set, Fin.ext_iff]
  by_cases h : k.val = j.val
  · simp [h]
  · simp [h, Ne.symm h]

@[simp] theorem entry_put_same {α : Type} (b : Bank α) (k : Cell) (v : α) : entry (put b k v) k = v := by
  simp [entry_put]

theorem entry_put_other {α : Type} (b : Bank α) {k j : Cell} (v : α) (h : j ≠ k) : entry (put b k v) j = entry b j := by
  simp [entry_put, h]

@[simp] theorem entry_fillBank {α : Type} (v : α) (k : Cell) : entry (fillBank v) k = v := by
  simp [entry, fillBank]

@[simp] theorem entry_map {α β : Type} (f : α → β) (b : Bank α) (k : Cell) : entry (b.map f) k = f (entry b k) := by
  simp [entry]

@[simp] theorem entry_ofFn {α : Type} (f : Cell → α) (k : Cell) : entry (Vector.ofFn f) k = f k := by
  simp [entry]

/-- Arrays with the same entries are equal. -/
theorem bank_ext {α : Type} {b b' : Bank α} (h : ∀ k, entry b k = entry b' k) : b = b' := by
  apply Vector.ext
  intro i hi
  exact h ⟨i, hi⟩

@[simp] theorem rowOf_idx (r : Row) (c : Col) : rowOf (idx r c) = r := by
  apply Fin.ext
  simp only [rowOf, idx]
  omega

@[simp] theorem colOf_idx (r : Row) (c : Col) : colOf (idx r c) = c := by
  apply Fin.ext
  simp only [colOf, idx]
  omega

@[simp] theorem idx_rowOf_colOf (k : Cell) : idx (rowOf k) (colOf k) = k := by
  apply Fin.ext
  simp only [rowOf, colOf, idx]
  omega

/-- Two cells are the same iff row and column are. -/
theorem idx_inj {r r' : Row} {c c' : Col} : idx r c = idx r' c' ↔ r = r' ∧ c = c' := by
  constructor
  · intro h
    exact ⟨by simpa using congrArg rowOf h, by simpa using congrArg colOf h⟩
  · rintro ⟨rfl, rfl⟩
    rfl

/-- The row-major traversal visits every cell. -/
theorem mem_rowMajor (k : Cell) : k ∈ rowMajor := by
  simp only [rowMajor, List.mem_flatMap, List.mem_map]
  exact ⟨rowOf k, by simp [rows], colOf k, by simp [cols], by simp⟩

/-- A fold of writes of one value function: what each entry holds after it. -/
theorem entry_foldl_put {α : Type} (f : Cell → α) (l : List Cell) (b : Bank α) (j : Cell) :
    entry (l.foldl (fun b k => put b k (f k)) b) j = if j ∈ l then f j else entry b j := by
  induction l generalizing b with
  | nil => simp
  | cons k l ih =>
    simp only [List.foldl_cons, ih, entry_put, List.mem_cons]
    by_cases h1 : j ∈ l
    · simp [h1]
    · by_cases h2 : j = k
      · simp [h2]
      · simp [h1, h2]

end Sys2Proof.Machine
end

