-- ==== Sys2Proof/Laws/State.lean ====
section
/-! SUPPORT. One lemma per field per named update of State, true by unfolding the update once, so that no later proof
unfolds a record update. -/

namespace Sys2Proof.Machine

variable (s : State)

@[simp] theorem setCreg_creg (v : Colour) : (s.setCreg v).creg = v := rfl
@[simp] theorem setCreg_busy (v : Colour) : (s.setCreg v).busy = s.busy := rfl
@[simp] theorem setCreg_fault (v : Colour) : (s.setCreg v).fault = s.fault := rfl
@[simp] theorem setCreg_faultCode (v : Colour) : (s.setCreg v).faultCode = s.faultCode := rfl
@[simp] theorem setCreg_faultCmd (v : Colour) : (s.setCreg v).faultCmd = s.faultCmd := rfl
@[simp] theorem setCreg_cmdWord (v : Colour) : (s.setCreg v).cmdWord = s.cmdWord := rfl
@[simp] theorem setCreg_inReset (v : Colour) : (s.setCreg v).inReset = s.inReset := rfl
@[simp] theorem setCreg_wait (v : Colour) : (s.setCreg v).wait = s.wait := rfl
@[simp] theorem setCreg_paceCnt (v : Colour) : (s.setCreg v).paceCnt = s.paceCnt := rfl
@[simp] theorem setCreg_heat (v : Colour) : (s.setCreg v).heat = s.heat := rfl
@[simp] theorem setCreg_head (v : Colour) : (s.setCreg v).head = s.head := rfl
@[simp] theorem setCreg_rint (v : Colour) : (s.setCreg v).rint = s.rint := rfl
@[simp] theorem setCreg_sint (v : Colour) : (s.setCreg v).sint = s.sint := rfl
@[simp] theorem setCreg_sweep (v : Colour) : (s.setCreg v).sweep = s.sweep := rfl
@[simp] theorem setCreg_fb (v : Colour) : (s.setCreg v).fb = s.fb := rfl
@[simp] theorem setCreg_host (v : Colour) : (s.setCreg v).host = s.host := rfl
@[simp] theorem setCreg_rngIn (v : Colour) : (s.setCreg v).rngIn = s.rngIn := rfl
@[simp] theorem setCreg_sinkIn (v : Colour) : (s.setCreg v).sinkIn = s.sinkIn := rfl
@[simp] theorem setCreg_draws (v : Colour) : (s.setCreg v).draws = s.draws := rfl
@[simp] theorem setCreg_frames (v : Colour) : (s.setCreg v).frames = s.frames := rfl

@[simp] theorem setHeat_creg (b : Bank Byte) : (s.setHeat b).creg = s.creg := rfl
@[simp] theorem setHeat_busy (b : Bank Byte) : (s.setHeat b).busy = s.busy := rfl
@[simp] theorem setHeat_fault (b : Bank Byte) : (s.setHeat b).fault = s.fault := rfl
@[simp] theorem setHeat_faultCode (b : Bank Byte) : (s.setHeat b).faultCode = s.faultCode := rfl
@[simp] theorem setHeat_faultCmd (b : Bank Byte) : (s.setHeat b).faultCmd = s.faultCmd := rfl
@[simp] theorem setHeat_cmdWord (b : Bank Byte) : (s.setHeat b).cmdWord = s.cmdWord := rfl
@[simp] theorem setHeat_inReset (b : Bank Byte) : (s.setHeat b).inReset = s.inReset := rfl
@[simp] theorem setHeat_wait (b : Bank Byte) : (s.setHeat b).wait = s.wait := rfl
@[simp] theorem setHeat_paceCnt (b : Bank Byte) : (s.setHeat b).paceCnt = s.paceCnt := rfl
@[simp] theorem setHeat_heat (b : Bank Byte) : (s.setHeat b).heat = b := rfl
@[simp] theorem setHeat_head (b : Bank Byte) : (s.setHeat b).head = s.head := rfl
@[simp] theorem setHeat_rint (b : Bank Byte) : (s.setHeat b).rint = s.rint := rfl
@[simp] theorem setHeat_sint (b : Bank Byte) : (s.setHeat b).sint = s.sint := rfl
@[simp] theorem setHeat_sweep (b : Bank Byte) : (s.setHeat b).sweep = s.sweep := rfl
@[simp] theorem setHeat_fb (b : Bank Byte) : (s.setHeat b).fb = s.fb := rfl
@[simp] theorem setHeat_host (b : Bank Byte) : (s.setHeat b).host = s.host := rfl
@[simp] theorem setHeat_rngIn (b : Bank Byte) : (s.setHeat b).rngIn = s.rngIn := rfl
@[simp] theorem setHeat_sinkIn (b : Bank Byte) : (s.setHeat b).sinkIn = s.sinkIn := rfl
@[simp] theorem setHeat_draws (b : Bank Byte) : (s.setHeat b).draws = s.draws := rfl
@[simp] theorem setHeat_frames (b : Bank Byte) : (s.setHeat b).frames = s.frames := rfl

@[simp] theorem setHead_creg (b : Bank Bool) : (s.setHead b).creg = s.creg := rfl
@[simp] theorem setHead_busy (b : Bank Bool) : (s.setHead b).busy = s.busy := rfl
@[simp] theorem setHead_fault (b : Bank Bool) : (s.setHead b).fault = s.fault := rfl
@[simp] theorem setHead_faultCode (b : Bank Bool) : (s.setHead b).faultCode = s.faultCode := rfl
@[simp] theorem setHead_faultCmd (b : Bank Bool) : (s.setHead b).faultCmd = s.faultCmd := rfl
@[simp] theorem setHead_cmdWord (b : Bank Bool) : (s.setHead b).cmdWord = s.cmdWord := rfl
@[simp] theorem setHead_inReset (b : Bank Bool) : (s.setHead b).inReset = s.inReset := rfl
@[simp] theorem setHead_wait (b : Bank Bool) : (s.setHead b).wait = s.wait := rfl
@[simp] theorem setHead_paceCnt (b : Bank Bool) : (s.setHead b).paceCnt = s.paceCnt := rfl
@[simp] theorem setHead_heat (b : Bank Bool) : (s.setHead b).heat = s.heat := rfl
@[simp] theorem setHead_head (b : Bank Bool) : (s.setHead b).head = b := rfl
@[simp] theorem setHead_rint (b : Bank Bool) : (s.setHead b).rint = s.rint := rfl
@[simp] theorem setHead_sint (b : Bank Bool) : (s.setHead b).sint = s.sint := rfl
@[simp] theorem setHead_sweep (b : Bank Bool) : (s.setHead b).sweep = s.sweep := rfl
@[simp] theorem setHead_fb (b : Bank Bool) : (s.setHead b).fb = s.fb := rfl
@[simp] theorem setHead_host (b : Bank Bool) : (s.setHead b).host = s.host := rfl
@[simp] theorem setHead_rngIn (b : Bank Bool) : (s.setHead b).rngIn = s.rngIn := rfl
@[simp] theorem setHead_sinkIn (b : Bank Bool) : (s.setHead b).sinkIn = s.sinkIn := rfl
@[simp] theorem setHead_draws (b : Bank Bool) : (s.setHead b).draws = s.draws := rfl
@[simp] theorem setHead_frames (b : Bank Bool) : (s.setHead b).frames = s.frames := rfl

@[simp] theorem setRint_creg (b : Bank Byte) : (s.setRint b).creg = s.creg := rfl
@[simp] theorem setRint_busy (b : Bank Byte) : (s.setRint b).busy = s.busy := rfl
@[simp] theorem setRint_fault (b : Bank Byte) : (s.setRint b).fault = s.fault := rfl
@[simp] theorem setRint_faultCode (b : Bank Byte) : (s.setRint b).faultCode = s.faultCode := rfl
@[simp] theorem setRint_faultCmd (b : Bank Byte) : (s.setRint b).faultCmd = s.faultCmd := rfl
@[simp] theorem setRint_cmdWord (b : Bank Byte) : (s.setRint b).cmdWord = s.cmdWord := rfl
@[simp] theorem setRint_inReset (b : Bank Byte) : (s.setRint b).inReset = s.inReset := rfl
@[simp] theorem setRint_wait (b : Bank Byte) : (s.setRint b).wait = s.wait := rfl
@[simp] theorem setRint_paceCnt (b : Bank Byte) : (s.setRint b).paceCnt = s.paceCnt := rfl
@[simp] theorem setRint_heat (b : Bank Byte) : (s.setRint b).heat = s.heat := rfl
@[simp] theorem setRint_head (b : Bank Byte) : (s.setRint b).head = s.head := rfl
@[simp] theorem setRint_rint (b : Bank Byte) : (s.setRint b).rint = b := rfl
@[simp] theorem setRint_sint (b : Bank Byte) : (s.setRint b).sint = s.sint := rfl
@[simp] theorem setRint_sweep (b : Bank Byte) : (s.setRint b).sweep = s.sweep := rfl
@[simp] theorem setRint_fb (b : Bank Byte) : (s.setRint b).fb = s.fb := rfl
@[simp] theorem setRint_host (b : Bank Byte) : (s.setRint b).host = s.host := rfl
@[simp] theorem setRint_rngIn (b : Bank Byte) : (s.setRint b).rngIn = s.rngIn := rfl
@[simp] theorem setRint_sinkIn (b : Bank Byte) : (s.setRint b).sinkIn = s.sinkIn := rfl
@[simp] theorem setRint_draws (b : Bank Byte) : (s.setRint b).draws = s.draws := rfl
@[simp] theorem setRint_frames (b : Bank Byte) : (s.setRint b).frames = s.frames := rfl

@[simp] theorem setSint_creg (b : Bank Byte) : (s.setSint b).creg = s.creg := rfl
@[simp] theorem setSint_busy (b : Bank Byte) : (s.setSint b).busy = s.busy := rfl
@[simp] theorem setSint_fault (b : Bank Byte) : (s.setSint b).fault = s.fault := rfl
@[simp] theorem setSint_faultCode (b : Bank Byte) : (s.setSint b).faultCode = s.faultCode := rfl
@[simp] theorem setSint_faultCmd (b : Bank Byte) : (s.setSint b).faultCmd = s.faultCmd := rfl
@[simp] theorem setSint_cmdWord (b : Bank Byte) : (s.setSint b).cmdWord = s.cmdWord := rfl
@[simp] theorem setSint_inReset (b : Bank Byte) : (s.setSint b).inReset = s.inReset := rfl
@[simp] theorem setSint_wait (b : Bank Byte) : (s.setSint b).wait = s.wait := rfl
@[simp] theorem setSint_paceCnt (b : Bank Byte) : (s.setSint b).paceCnt = s.paceCnt := rfl
@[simp] theorem setSint_heat (b : Bank Byte) : (s.setSint b).heat = s.heat := rfl
@[simp] theorem setSint_head (b : Bank Byte) : (s.setSint b).head = s.head := rfl
@[simp] theorem setSint_rint (b : Bank Byte) : (s.setSint b).rint = s.rint := rfl
@[simp] theorem setSint_sint (b : Bank Byte) : (s.setSint b).sint = b := rfl
@[simp] theorem setSint_sweep (b : Bank Byte) : (s.setSint b).sweep = s.sweep := rfl
@[simp] theorem setSint_fb (b : Bank Byte) : (s.setSint b).fb = s.fb := rfl
@[simp] theorem setSint_host (b : Bank Byte) : (s.setSint b).host = s.host := rfl
@[simp] theorem setSint_rngIn (b : Bank Byte) : (s.setSint b).rngIn = s.rngIn := rfl
@[simp] theorem setSint_sinkIn (b : Bank Byte) : (s.setSint b).sinkIn = s.sinkIn := rfl
@[simp] theorem setSint_draws (b : Bank Byte) : (s.setSint b).draws = s.draws := rfl
@[simp] theorem setSint_frames (b : Bank Byte) : (s.setSint b).frames = s.frames := rfl

@[simp] theorem setSweep_creg (v : Byte) : (s.setSweep v).creg = s.creg := rfl
@[simp] theorem setSweep_busy (v : Byte) : (s.setSweep v).busy = s.busy := rfl
@[simp] theorem setSweep_fault (v : Byte) : (s.setSweep v).fault = s.fault := rfl
@[simp] theorem setSweep_faultCode (v : Byte) : (s.setSweep v).faultCode = s.faultCode := rfl
@[simp] theorem setSweep_faultCmd (v : Byte) : (s.setSweep v).faultCmd = s.faultCmd := rfl
@[simp] theorem setSweep_cmdWord (v : Byte) : (s.setSweep v).cmdWord = s.cmdWord := rfl
@[simp] theorem setSweep_inReset (v : Byte) : (s.setSweep v).inReset = s.inReset := rfl
@[simp] theorem setSweep_wait (v : Byte) : (s.setSweep v).wait = s.wait := rfl
@[simp] theorem setSweep_paceCnt (v : Byte) : (s.setSweep v).paceCnt = s.paceCnt := rfl
@[simp] theorem setSweep_heat (v : Byte) : (s.setSweep v).heat = s.heat := rfl
@[simp] theorem setSweep_head (v : Byte) : (s.setSweep v).head = s.head := rfl
@[simp] theorem setSweep_rint (v : Byte) : (s.setSweep v).rint = s.rint := rfl
@[simp] theorem setSweep_sint (v : Byte) : (s.setSweep v).sint = s.sint := rfl
@[simp] theorem setSweep_sweep (v : Byte) : (s.setSweep v).sweep = v := rfl
@[simp] theorem setSweep_fb (v : Byte) : (s.setSweep v).fb = s.fb := rfl
@[simp] theorem setSweep_host (v : Byte) : (s.setSweep v).host = s.host := rfl
@[simp] theorem setSweep_rngIn (v : Byte) : (s.setSweep v).rngIn = s.rngIn := rfl
@[simp] theorem setSweep_sinkIn (v : Byte) : (s.setSweep v).sinkIn = s.sinkIn := rfl
@[simp] theorem setSweep_draws (v : Byte) : (s.setSweep v).draws = s.draws := rfl
@[simp] theorem setSweep_frames (v : Byte) : (s.setSweep v).frames = s.frames := rfl

@[simp] theorem setFb_creg (m : Memory) : (s.setFb m).creg = s.creg := rfl
@[simp] theorem setFb_busy (m : Memory) : (s.setFb m).busy = s.busy := rfl
@[simp] theorem setFb_fault (m : Memory) : (s.setFb m).fault = s.fault := rfl
@[simp] theorem setFb_faultCode (m : Memory) : (s.setFb m).faultCode = s.faultCode := rfl
@[simp] theorem setFb_faultCmd (m : Memory) : (s.setFb m).faultCmd = s.faultCmd := rfl
@[simp] theorem setFb_cmdWord (m : Memory) : (s.setFb m).cmdWord = s.cmdWord := rfl
@[simp] theorem setFb_inReset (m : Memory) : (s.setFb m).inReset = s.inReset := rfl
@[simp] theorem setFb_wait (m : Memory) : (s.setFb m).wait = s.wait := rfl
@[simp] theorem setFb_paceCnt (m : Memory) : (s.setFb m).paceCnt = s.paceCnt := rfl
@[simp] theorem setFb_heat (m : Memory) : (s.setFb m).heat = s.heat := rfl
@[simp] theorem setFb_head (m : Memory) : (s.setFb m).head = s.head := rfl
@[simp] theorem setFb_rint (m : Memory) : (s.setFb m).rint = s.rint := rfl
@[simp] theorem setFb_sint (m : Memory) : (s.setFb m).sint = s.sint := rfl
@[simp] theorem setFb_sweep (m : Memory) : (s.setFb m).sweep = s.sweep := rfl
@[simp] theorem setFb_fb (m : Memory) : (s.setFb m).fb = m := rfl
@[simp] theorem setFb_host (m : Memory) : (s.setFb m).host = s.host := rfl
@[simp] theorem setFb_rngIn (m : Memory) : (s.setFb m).rngIn = s.rngIn := rfl
@[simp] theorem setFb_sinkIn (m : Memory) : (s.setFb m).sinkIn = s.sinkIn := rfl
@[simp] theorem setFb_draws (m : Memory) : (s.setFb m).draws = s.draws := rfl
@[simp] theorem setFb_frames (m : Memory) : (s.setFb m).frames = s.frames := rfl

@[simp] theorem setPace_creg (n : Option Nat) : (s.setPace n).creg = s.creg := rfl
@[simp] theorem setPace_busy (n : Option Nat) : (s.setPace n).busy = s.busy := rfl
@[simp] theorem setPace_fault (n : Option Nat) : (s.setPace n).fault = s.fault := rfl
@[simp] theorem setPace_faultCode (n : Option Nat) : (s.setPace n).faultCode = s.faultCode := rfl
@[simp] theorem setPace_faultCmd (n : Option Nat) : (s.setPace n).faultCmd = s.faultCmd := rfl
@[simp] theorem setPace_cmdWord (n : Option Nat) : (s.setPace n).cmdWord = s.cmdWord := rfl
@[simp] theorem setPace_inReset (n : Option Nat) : (s.setPace n).inReset = s.inReset := rfl
@[simp] theorem setPace_wait (n : Option Nat) : (s.setPace n).wait = s.wait := rfl
@[simp] theorem setPace_paceCnt (n : Option Nat) : (s.setPace n).paceCnt = n := rfl
@[simp] theorem setPace_heat (n : Option Nat) : (s.setPace n).heat = s.heat := rfl
@[simp] theorem setPace_head (n : Option Nat) : (s.setPace n).head = s.head := rfl
@[simp] theorem setPace_rint (n : Option Nat) : (s.setPace n).rint = s.rint := rfl
@[simp] theorem setPace_sint (n : Option Nat) : (s.setPace n).sint = s.sint := rfl
@[simp] theorem setPace_sweep (n : Option Nat) : (s.setPace n).sweep = s.sweep := rfl
@[simp] theorem setPace_fb (n : Option Nat) : (s.setPace n).fb = s.fb := rfl
@[simp] theorem setPace_host (n : Option Nat) : (s.setPace n).host = s.host := rfl
@[simp] theorem setPace_rngIn (n : Option Nat) : (s.setPace n).rngIn = s.rngIn := rfl
@[simp] theorem setPace_sinkIn (n : Option Nat) : (s.setPace n).sinkIn = s.sinkIn := rfl
@[simp] theorem setPace_draws (n : Option Nat) : (s.setPace n).draws = s.draws := rfl
@[simp] theorem setPace_frames (n : Option Nat) : (s.setPace n).frames = s.frames := rfl

@[simp] theorem popHost_creg : s.popHost.creg = s.creg := rfl
@[simp] theorem popHost_busy : s.popHost.busy = s.busy := rfl
@[simp] theorem popHost_fault : s.popHost.fault = s.fault := rfl
@[simp] theorem popHost_faultCode : s.popHost.faultCode = s.faultCode := rfl
@[simp] theorem popHost_faultCmd : s.popHost.faultCmd = s.faultCmd := rfl
@[simp] theorem popHost_cmdWord : s.popHost.cmdWord = s.cmdWord := rfl
@[simp] theorem popHost_inReset : s.popHost.inReset = s.inReset := rfl
@[simp] theorem popHost_wait : s.popHost.wait = s.wait := rfl
@[simp] theorem popHost_paceCnt : s.popHost.paceCnt = s.paceCnt := rfl
@[simp] theorem popHost_heat : s.popHost.heat = s.heat := rfl
@[simp] theorem popHost_head : s.popHost.head = s.head := rfl
@[simp] theorem popHost_rint : s.popHost.rint = s.rint := rfl
@[simp] theorem popHost_sint : s.popHost.sint = s.sint := rfl
@[simp] theorem popHost_sweep : s.popHost.sweep = s.sweep := rfl
@[simp] theorem popHost_fb : s.popHost.fb = s.fb := rfl
@[simp] theorem popHost_host : s.popHost.host = s.host.tail := rfl
@[simp] theorem popHost_rngIn : s.popHost.rngIn = s.rngIn := rfl
@[simp] theorem popHost_sinkIn : s.popHost.sinkIn = s.sinkIn := rfl
@[simp] theorem popHost_draws : s.popHost.draws = s.draws := rfl
@[simp] theorem popHost_frames : s.popHost.frames = s.frames := rfl

@[simp] theorem popRng_creg : s.popRng.creg = s.creg := rfl
@[simp] theorem popRng_busy : s.popRng.busy = s.busy := rfl
@[simp] theorem popRng_fault : s.popRng.fault = s.fault := rfl
@[simp] theorem popRng_faultCode : s.popRng.faultCode = s.faultCode := rfl
@[simp] theorem popRng_faultCmd : s.popRng.faultCmd = s.faultCmd := rfl
@[simp] theorem popRng_cmdWord : s.popRng.cmdWord = s.cmdWord := rfl
@[simp] theorem popRng_inReset : s.popRng.inReset = s.inReset := rfl
@[simp] theorem popRng_wait : s.popRng.wait = s.wait := rfl
@[simp] theorem popRng_paceCnt : s.popRng.paceCnt = s.paceCnt := rfl
@[simp] theorem popRng_heat : s.popRng.heat = s.heat := rfl
@[simp] theorem popRng_head : s.popRng.head = s.head := rfl
@[simp] theorem popRng_rint : s.popRng.rint = s.rint := rfl
@[simp] theorem popRng_sint : s.popRng.sint = s.sint := rfl
@[simp] theorem popRng_sweep : s.popRng.sweep = s.sweep := rfl
@[simp] theorem popRng_fb : s.popRng.fb = s.fb := rfl
@[simp] theorem popRng_host : s.popRng.host = s.host := rfl
@[simp] theorem popRng_rngIn : s.popRng.rngIn = s.rngIn.tail := rfl
@[simp] theorem popRng_sinkIn : s.popRng.sinkIn = s.sinkIn := rfl
@[simp] theorem popRng_draws : s.popRng.draws = s.draws := rfl
@[simp] theorem popRng_frames : s.popRng.frames = s.frames := rfl

@[simp] theorem popSink_creg : s.popSink.creg = s.creg := rfl
@[simp] theorem popSink_busy : s.popSink.busy = s.busy := rfl
@[simp] theorem popSink_fault : s.popSink.fault = s.fault := rfl
@[simp] theorem popSink_faultCode : s.popSink.faultCode = s.faultCode := rfl
@[simp] theorem popSink_faultCmd : s.popSink.faultCmd = s.faultCmd := rfl
@[simp] theorem popSink_cmdWord : s.popSink.cmdWord = s.cmdWord := rfl
@[simp] theorem popSink_inReset : s.popSink.inReset = s.inReset := rfl
@[simp] theorem popSink_wait : s.popSink.wait = s.wait := rfl
@[simp] theorem popSink_paceCnt : s.popSink.paceCnt = s.paceCnt := rfl
@[simp] theorem popSink_heat : s.popSink.heat = s.heat := rfl
@[simp] theorem popSink_head : s.popSink.head = s.head := rfl
@[simp] theorem popSink_rint : s.popSink.rint = s.rint := rfl
@[simp] theorem popSink_sint : s.popSink.sint = s.sint := rfl
@[simp] theorem popSink_sweep : s.popSink.sweep = s.sweep := rfl
@[simp] theorem popSink_fb : s.popSink.fb = s.fb := rfl
@[simp] theorem popSink_host : s.popSink.host = s.host := rfl
@[simp] theorem popSink_rngIn : s.popSink.rngIn = s.rngIn := rfl
@[simp] theorem popSink_sinkIn : s.popSink.sinkIn = s.sinkIn.tail := rfl
@[simp] theorem popSink_draws : s.popSink.draws = s.draws := rfl
@[simp] theorem popSink_frames : s.popSink.frames = s.frames := rfl

@[simp] theorem recordDraw_creg (d : Draw) : (s.recordDraw d).creg = s.creg := rfl
@[simp] theorem recordDraw_busy (d : Draw) : (s.recordDraw d).busy = s.busy := rfl
@[simp] theorem recordDraw_fault (d : Draw) : (s.recordDraw d).fault = s.fault := rfl
@[simp] theorem recordDraw_faultCode (d : Draw) : (s.recordDraw d).faultCode = s.faultCode := rfl
@[simp] theorem recordDraw_faultCmd (d : Draw) : (s.recordDraw d).faultCmd = s.faultCmd := rfl
@[simp] theorem recordDraw_cmdWord (d : Draw) : (s.recordDraw d).cmdWord = s.cmdWord := rfl
@[simp] theorem recordDraw_inReset (d : Draw) : (s.recordDraw d).inReset = s.inReset := rfl
@[simp] theorem recordDraw_wait (d : Draw) : (s.recordDraw d).wait = s.wait := rfl
@[simp] theorem recordDraw_paceCnt (d : Draw) : (s.recordDraw d).paceCnt = s.paceCnt := rfl
@[simp] theorem recordDraw_heat (d : Draw) : (s.recordDraw d).heat = s.heat := rfl
@[simp] theorem recordDraw_head (d : Draw) : (s.recordDraw d).head = s.head := rfl
@[simp] theorem recordDraw_rint (d : Draw) : (s.recordDraw d).rint = s.rint := rfl
@[simp] theorem recordDraw_sint (d : Draw) : (s.recordDraw d).sint = s.sint := rfl
@[simp] theorem recordDraw_sweep (d : Draw) : (s.recordDraw d).sweep = s.sweep := rfl
@[simp] theorem recordDraw_fb (d : Draw) : (s.recordDraw d).fb = s.fb := rfl
@[simp] theorem recordDraw_host (d : Draw) : (s.recordDraw d).host = s.host := rfl
@[simp] theorem recordDraw_rngIn (d : Draw) : (s.recordDraw d).rngIn = s.rngIn := rfl
@[simp] theorem recordDraw_sinkIn (d : Draw) : (s.recordDraw d).sinkIn = s.sinkIn := rfl
@[simp] theorem recordDraw_draws (d : Draw) : (s.recordDraw d).draws = s.draws ++ [d] := rfl
@[simp] theorem recordDraw_frames (d : Draw) : (s.recordDraw d).frames = s.frames := rfl

@[simp] theorem recordFrame_creg (f : Frame) : (s.recordFrame f).creg = s.creg := rfl
@[simp] theorem recordFrame_busy (f : Frame) : (s.recordFrame f).busy = s.busy := rfl
@[simp] theorem recordFrame_fault (f : Frame) : (s.recordFrame f).fault = s.fault := rfl
@[simp] theorem recordFrame_faultCode (f : Frame) : (s.recordFrame f).faultCode = s.faultCode := rfl
@[simp] theorem recordFrame_faultCmd (f : Frame) : (s.recordFrame f).faultCmd = s.faultCmd := rfl
@[simp] theorem recordFrame_cmdWord (f : Frame) : (s.recordFrame f).cmdWord = s.cmdWord := rfl
@[simp] theorem recordFrame_inReset (f : Frame) : (s.recordFrame f).inReset = s.inReset := rfl
@[simp] theorem recordFrame_wait (f : Frame) : (s.recordFrame f).wait = s.wait := rfl
@[simp] theorem recordFrame_paceCnt (f : Frame) : (s.recordFrame f).paceCnt = s.paceCnt := rfl
@[simp] theorem recordFrame_heat (f : Frame) : (s.recordFrame f).heat = s.heat := rfl
@[simp] theorem recordFrame_head (f : Frame) : (s.recordFrame f).head = s.head := rfl
@[simp] theorem recordFrame_rint (f : Frame) : (s.recordFrame f).rint = s.rint := rfl
@[simp] theorem recordFrame_sint (f : Frame) : (s.recordFrame f).sint = s.sint := rfl
@[simp] theorem recordFrame_sweep (f : Frame) : (s.recordFrame f).sweep = s.sweep := rfl
@[simp] theorem recordFrame_fb (f : Frame) : (s.recordFrame f).fb = s.fb := rfl
@[simp] theorem recordFrame_host (f : Frame) : (s.recordFrame f).host = s.host := rfl
@[simp] theorem recordFrame_rngIn (f : Frame) : (s.recordFrame f).rngIn = s.rngIn := rfl
@[simp] theorem recordFrame_sinkIn (f : Frame) : (s.recordFrame f).sinkIn = s.sinkIn := rfl
@[simp] theorem recordFrame_draws (f : Frame) : (s.recordFrame f).draws = s.draws := rfl
@[simp] theorem recordFrame_frames (f : Frame) : (s.recordFrame f).frames = s.frames ++ [f] := rfl

@[simp] theorem accept_creg (w : Word) : (accept w s).creg = s.creg := rfl
@[simp] theorem accept_busy (w : Word) : (accept w s).busy = true := rfl
@[simp] theorem accept_fault (w : Word) : (accept w s).fault = s.fault := rfl
@[simp] theorem accept_faultCode (w : Word) : (accept w s).faultCode = s.faultCode := rfl
@[simp] theorem accept_faultCmd (w : Word) : (accept w s).faultCmd = s.faultCmd := rfl
@[simp] theorem accept_cmdWord (w : Word) : (accept w s).cmdWord = w := rfl
@[simp] theorem accept_inReset (w : Word) : (accept w s).inReset = s.inReset := rfl
@[simp] theorem accept_wait (w : Word) : (accept w s).wait = s.wait := rfl
@[simp] theorem accept_paceCnt (w : Word) : (accept w s).paceCnt = s.paceCnt := rfl
@[simp] theorem accept_heat (w : Word) : (accept w s).heat = s.heat := rfl
@[simp] theorem accept_head (w : Word) : (accept w s).head = s.head := rfl
@[simp] theorem accept_rint (w : Word) : (accept w s).rint = s.rint := rfl
@[simp] theorem accept_sint (w : Word) : (accept w s).sint = s.sint := rfl
@[simp] theorem accept_sweep (w : Word) : (accept w s).sweep = s.sweep := rfl
@[simp] theorem accept_fb (w : Word) : (accept w s).fb = s.fb := rfl
@[simp] theorem accept_host (w : Word) : (accept w s).host = s.host := rfl
@[simp] theorem accept_rngIn (w : Word) : (accept w s).rngIn = s.rngIn := rfl
@[simp] theorem accept_sinkIn (w : Word) : (accept w s).sinkIn = s.sinkIn := rfl
@[simp] theorem accept_draws (w : Word) : (accept w s).draws = s.draws := rfl
@[simp] theorem accept_frames (w : Word) : (accept w s).frames = s.frames := rfl

@[simp] theorem complete_creg : (complete s).creg = s.creg := rfl
@[simp] theorem complete_busy : (complete s).busy = false := rfl
@[simp] theorem complete_fault : (complete s).fault = s.fault := rfl
@[simp] theorem complete_faultCode : (complete s).faultCode = s.faultCode := rfl
@[simp] theorem complete_faultCmd : (complete s).faultCmd = s.faultCmd := rfl
@[simp] theorem complete_cmdWord : (complete s).cmdWord = 0 := rfl
@[simp] theorem complete_inReset : (complete s).inReset = s.inReset := rfl
@[simp] theorem complete_wait : (complete s).wait = s.wait := rfl
@[simp] theorem complete_paceCnt : (complete s).paceCnt = s.paceCnt := rfl
@[simp] theorem complete_heat : (complete s).heat = s.heat := rfl
@[simp] theorem complete_head : (complete s).head = s.head := rfl
@[simp] theorem complete_rint : (complete s).rint = s.rint := rfl
@[simp] theorem complete_sint : (complete s).sint = s.sint := rfl
@[simp] theorem complete_sweep : (complete s).sweep = s.sweep := rfl
@[simp] theorem complete_fb : (complete s).fb = s.fb := rfl
@[simp] theorem complete_host : (complete s).host = s.host := rfl
@[simp] theorem complete_rngIn : (complete s).rngIn = s.rngIn := rfl
@[simp] theorem complete_sinkIn : (complete s).sinkIn = s.sinkIn := rfl
@[simp] theorem complete_draws : (complete s).draws = s.draws := rfl
@[simp] theorem complete_frames : (complete s).frames = s.frames := rfl

@[simp] theorem faultEntry_creg (c : FaultCode) : (faultEntry c s).creg = s.creg := rfl
@[simp] theorem faultEntry_busy (c : FaultCode) : (faultEntry c s).busy = false := rfl
@[simp] theorem faultEntry_fault (c : FaultCode) : (faultEntry c s).fault = true := rfl
@[simp] theorem faultEntry_faultCode (c : FaultCode) : (faultEntry c s).faultCode = c := rfl
@[simp] theorem faultEntry_faultCmd (c : FaultCode) : (faultEntry c s).faultCmd = s.cmdWord := rfl
@[simp] theorem faultEntry_cmdWord (c : FaultCode) : (faultEntry c s).cmdWord = 0 := rfl
@[simp] theorem faultEntry_inReset (c : FaultCode) : (faultEntry c s).inReset = s.inReset := rfl
@[simp] theorem faultEntry_wait (c : FaultCode) : (faultEntry c s).wait = .none := rfl
@[simp] theorem faultEntry_paceCnt (c : FaultCode) : (faultEntry c s).paceCnt = s.paceCnt := rfl
@[simp] theorem faultEntry_heat (c : FaultCode) : (faultEntry c s).heat = s.heat := rfl
@[simp] theorem faultEntry_head (c : FaultCode) : (faultEntry c s).head = s.head := rfl
@[simp] theorem faultEntry_rint (c : FaultCode) : (faultEntry c s).rint = s.rint := rfl
@[simp] theorem faultEntry_sint (c : FaultCode) : (faultEntry c s).sint = s.sint := rfl
@[simp] theorem faultEntry_sweep (c : FaultCode) : (faultEntry c s).sweep = s.sweep := rfl
@[simp] theorem faultEntry_fb (c : FaultCode) : (faultEntry c s).fb = s.fb := rfl
@[simp] theorem faultEntry_host (c : FaultCode) : (faultEntry c s).host = s.host := rfl
@[simp] theorem faultEntry_rngIn (c : FaultCode) : (faultEntry c s).rngIn = s.rngIn := rfl
@[simp] theorem faultEntry_sinkIn (c : FaultCode) : (faultEntry c s).sinkIn = s.sinkIn := rfl
@[simp] theorem faultEntry_draws (c : FaultCode) : (faultEntry c s).draws = s.draws := rfl
@[simp] theorem faultEntry_frames (c : FaultCode) : (faultEntry c s).frames = s.frames := rfl

@[simp] theorem stall_creg (w : Wait) : (stall w s).creg = s.creg := rfl
@[simp] theorem stall_busy (w : Wait) : (stall w s).busy = true := rfl
@[simp] theorem stall_fault (w : Wait) : (stall w s).fault = s.fault := rfl
@[simp] theorem stall_faultCode (w : Wait) : (stall w s).faultCode = s.faultCode := rfl
@[simp] theorem stall_faultCmd (w : Wait) : (stall w s).faultCmd = s.faultCmd := rfl
@[simp] theorem stall_cmdWord (w : Wait) : (stall w s).cmdWord = s.cmdWord := rfl
@[simp] theorem stall_inReset (w : Wait) : (stall w s).inReset = s.inReset := rfl
@[simp] theorem stall_wait (w : Wait) : (stall w s).wait = w := rfl
@[simp] theorem stall_paceCnt (w : Wait) : (stall w s).paceCnt = s.paceCnt := rfl
@[simp] theorem stall_heat (w : Wait) : (stall w s).heat = s.heat := rfl
@[simp] theorem stall_head (w : Wait) : (stall w s).head = s.head := rfl
@[simp] theorem stall_rint (w : Wait) : (stall w s).rint = s.rint := rfl
@[simp] theorem stall_sint (w : Wait) : (stall w s).sint = s.sint := rfl
@[simp] theorem stall_sweep (w : Wait) : (stall w s).sweep = s.sweep := rfl
@[simp] theorem stall_fb (w : Wait) : (stall w s).fb = s.fb := rfl
@[simp] theorem stall_host (w : Wait) : (stall w s).host = s.host := rfl
@[simp] theorem stall_rngIn (w : Wait) : (stall w s).rngIn = s.rngIn := rfl
@[simp] theorem stall_sinkIn (w : Wait) : (stall w s).sinkIn = s.sinkIn := rfl
@[simp] theorem stall_draws (w : Wait) : (stall w s).draws = s.draws := rfl
@[simp] theorem stall_frames (w : Wait) : (stall w s).frames = s.frames := rfl

@[simp] theorem pace_creg (p : Config.Parameters) (f : Fps) : (pace p f s).creg = s.creg := rfl
@[simp] theorem pace_busy (p : Config.Parameters) (f : Fps) : (pace p f s).busy = s.busy := rfl
@[simp] theorem pace_fault (p : Config.Parameters) (f : Fps) : (pace p f s).fault = s.fault := rfl
@[simp] theorem pace_faultCode (p : Config.Parameters) (f : Fps) : (pace p f s).faultCode = s.faultCode := rfl
@[simp] theorem pace_faultCmd (p : Config.Parameters) (f : Fps) : (pace p f s).faultCmd = s.faultCmd := rfl
@[simp] theorem pace_cmdWord (p : Config.Parameters) (f : Fps) : (pace p f s).cmdWord = s.cmdWord := rfl
@[simp] theorem pace_inReset (p : Config.Parameters) (f : Fps) : (pace p f s).inReset = s.inReset := rfl
@[simp] theorem pace_wait (p : Config.Parameters) (f : Fps) : (pace p f s).wait = s.wait := rfl
@[simp] theorem pace_paceCnt (p : Config.Parameters) (f : Fps) : (pace p f s).paceCnt = none := rfl
@[simp] theorem pace_heat (p : Config.Parameters) (f : Fps) : (pace p f s).heat = s.heat := rfl
@[simp] theorem pace_head (p : Config.Parameters) (f : Fps) : (pace p f s).head = s.head := rfl
@[simp] theorem pace_rint (p : Config.Parameters) (f : Fps) : (pace p f s).rint = s.rint := rfl
@[simp] theorem pace_sint (p : Config.Parameters) (f : Fps) : (pace p f s).sint = s.sint := rfl
@[simp] theorem pace_sweep (p : Config.Parameters) (f : Fps) : (pace p f s).sweep = s.sweep := rfl
@[simp] theorem pace_fb (p : Config.Parameters) (f : Fps) : (pace p f s).fb = s.fb := rfl
@[simp] theorem pace_host (p : Config.Parameters) (f : Fps) : (pace p f s).host = s.host := rfl
@[simp] theorem pace_rngIn (p : Config.Parameters) (f : Fps) : (pace p f s).rngIn = s.rngIn := rfl
@[simp] theorem pace_sinkIn (p : Config.Parameters) (f : Fps) : (pace p f s).sinkIn = s.sinkIn := rfl
@[simp] theorem pace_draws (p : Config.Parameters) (f : Fps) : (pace p f s).draws = s.draws := rfl
@[simp] theorem pace_frames (p : Config.Parameters) (f : Fps) : (pace p f s).frames = s.frames := rfl

@[simp] theorem renderWith_creg (f : Row → Col → Colour) : (renderWith f s).creg = s.creg := by
  simp only [renderWith, setFb_creg]
@[simp] theorem renderWith_busy (f : Row → Col → Colour) : (renderWith f s).busy = s.busy := by
  simp only [renderWith, setFb_busy]
@[simp] theorem renderWith_fault (f : Row → Col → Colour) : (renderWith f s).fault = s.fault := by
  simp only [renderWith, setFb_fault]
@[simp] theorem renderWith_faultCode (f : Row → Col → Colour) : (renderWith f s).faultCode = s.faultCode := by
  simp only [renderWith, setFb_faultCode]
@[simp] theorem renderWith_faultCmd (f : Row → Col → Colour) : (renderWith f s).faultCmd = s.faultCmd := by
  simp only [renderWith, setFb_faultCmd]
@[simp] theorem renderWith_cmdWord (f : Row → Col → Colour) : (renderWith f s).cmdWord = s.cmdWord := by
  simp only [renderWith, setFb_cmdWord]
@[simp] theorem renderWith_inReset (f : Row → Col → Colour) : (renderWith f s).inReset = s.inReset := by
  simp only [renderWith, setFb_inReset]
@[simp] theorem renderWith_wait (f : Row → Col → Colour) : (renderWith f s).wait = s.wait := by
  simp only [renderWith, setFb_wait]
@[simp] theorem renderWith_paceCnt (f : Row → Col → Colour) : (renderWith f s).paceCnt = s.paceCnt := by
  simp only [renderWith, setFb_paceCnt]
@[simp] theorem renderWith_heat (f : Row → Col → Colour) : (renderWith f s).heat = s.heat := by
  simp only [renderWith, setFb_heat]
@[simp] theorem renderWith_head (f : Row → Col → Colour) : (renderWith f s).head = s.head := by
  simp only [renderWith, setFb_head]
@[simp] theorem renderWith_rint (f : Row → Col → Colour) : (renderWith f s).rint = s.rint := by
  simp only [renderWith, setFb_rint]
@[simp] theorem renderWith_sint (f : Row → Col → Colour) : (renderWith f s).sint = s.sint := by
  simp only [renderWith, setFb_sint]
@[simp] theorem renderWith_sweep (f : Row → Col → Colour) : (renderWith f s).sweep = s.sweep := by
  simp only [renderWith, setFb_sweep]
@[simp] theorem renderWith_fb (f : Row → Col → Colour) : (renderWith f s).fb = fillFrom f s.fb := by
  simp only [renderWith, setFb_fb]
@[simp] theorem renderWith_host (f : Row → Col → Colour) : (renderWith f s).host = s.host := by
  simp only [renderWith, setFb_host]
@[simp] theorem renderWith_rngIn (f : Row → Col → Colour) : (renderWith f s).rngIn = s.rngIn := by
  simp only [renderWith, setFb_rngIn]
@[simp] theorem renderWith_sinkIn (f : Row → Col → Colour) : (renderWith f s).sinkIn = s.sinkIn := by
  simp only [renderWith, setFb_sinkIn]
@[simp] theorem renderWith_draws (f : Row → Col → Colour) : (renderWith f s).draws = s.draws := by
  simp only [renderWith, setFb_draws]
@[simp] theorem renderWith_frames (f : Row → Col → Colour) : (renderWith f s).frames = s.frames := by
  simp only [renderWith, setFb_frames]

end Sys2Proof.Machine
end

