-- ==== Sys2Proof/Laws/Flow.lean ====
section
/-! SUPPORT. Once and for all what the sequencing operations and a draw can do: an induction principle over the parts of
a command (`Flow.Sat`), and the replies the draws of a command get. -/

namespace Sys2Proof.Machine

/-- Every state a part can leave: `P` where the command goes on, `Q` where it has ended or stalled. -/
def Flow.Sat (P Q : State → Prop) : Flow → Prop
  | .go s => P s
  | .halt s => Q s

@[simp] theorem Flow.sat_go {P Q : State → Prop} {s : State} : (Flow.go s).Sat P Q ↔ P s := Iff.rfl

@[simp] theorem Flow.sat_halt {P Q : State → Prop} {s : State} : (Flow.halt s).Sat P Q ↔ Q s := Iff.rfl

@[simp] theorem Flow.andThen_go (s : State) (next : State → Flow) : (Flow.go s).andThen next = next s := rfl

@[simp] theorem Flow.andThen_halt (s : State) (next : State → Flow) : (Flow.halt s).andThen next = .halt s := rfl

@[simp] theorem Flow.final_go (s : State) : (Flow.go s).final = complete s := rfl

@[simp] theorem Flow.final_halt (s : State) : (Flow.halt s).final = s := rfl

theorem Flow.Sat.andThen {P P' Q : State → Prop} {f : Flow} {next : State → Flow} (hf : f.Sat P Q)
    (hn : ∀ s, P s → (next s).Sat P' Q) : (f.andThen next).Sat P' Q := by
  cases f with
  | go s => exact hn s hf
  | halt s => exact hf

theorem Flow.Sat.mono {P P' Q Q' : State → Prop} {f : Flow} (hf : f.Sat P Q) (hP : ∀ s, P s → P' s)
    (hQ : ∀ s, Q s → Q' s) : f.Sat P' Q' := by
  cases f with
  | go s => exact hP s hf
  | halt s => exact hQ s hf

/-- What holds of a command's last state. -/
theorem Flow.Sat.final {P Q R : State → Prop} {f : Flow} (hf : f.Sat P Q) (hP : ∀ s, P s → R (complete s))
    (hQ : ∀ s, Q s → R s) : R f.final := by
  cases f with
  | go s => exact hP s hf
  | halt s => exact hQ s hf

/-- A loop keeps what each of its parts keeps. -/
theorem Flow.sat_loop {α : Type} {P Q : State → Prop} {part : α → State → Flow}
    (h : ∀ a s, P s → (part a s).Sat P Q) (l : List α) {s : State} (hs : P s) : (Flow.loop part l s).Sat P Q := by
  induction l generalizing s with
  | nil => exact hs
  | cons a l ih => exact (h a s hs).andThen fun _ ht => ih ht

/-- A repetition keeps what its part keeps. -/
theorem Flow.sat_times {P Q : State → Prop} {part : State → Flow} (h : ∀ s, P s → (part s).Sat P Q) (n : Nat) {s : State}
    (hs : P s) : (Flow.times part n s).Sat P Q := by
  induction n generalizing s with
  | zero => exact hs
  | succ n ih => exact (h s hs).andThen fun _ ht => ih ht

/-- A loop cut in two. -/
theorem Flow.loop_append {α : Type} (part : α → State → Flow) (l l' : List α) (s : State) :
    Flow.loop part (l ++ l') s = (Flow.loop part l s).andThen (Flow.loop part l') := by
  induction l generalizing s with
  | nil => rfl
  | cons a l ih =>
    simp only [List.cons_append, Flow.loop]
    cases part a s with
    | go t => exact ih t
    | halt t => rfl

/-- Everything a draw can do: stall, fault, or go on with an answer in range. -/
theorem withDraw_cases (lo : Byte) (hi : BitVec 9) (s : State) (rest : Byte → State → Flow) :
    (s.nextReply = .never ∧ withDraw lo hi s rest = .halt (stall (.draw lo hi) s.popRng)) ∨
    (∃ v, s.nextReply = .ack v ∧ inRange lo hi v = false ∧
      withDraw lo hi s rest = .halt (faultEntry .rngRange (s.popRng.recordDraw ⟨lo, hi, v⟩))) ∨
    ∃ v, s.nextReply = .ack v ∧ inRange lo hi v = true ∧
      withDraw lo hi s rest = rest v (s.popRng.recordDraw ⟨lo, hi, v⟩) := by
  unfold withDraw
  cases s.nextReply with
  | never => exact .inl ⟨rfl, rfl⟩
  | ack v =>
    cases h : inRange lo hi v with
    | false => exact .inr (.inl ⟨v, rfl, h, by simp [h]⟩)
    | true => exact .inr (.inr ⟨v, rfl, h, by simp [h]⟩)

/-- A draw satisfies what its three outcomes satisfy. -/
theorem sat_withDraw {P Q : State → Prop} {lo : Byte} {hi : BitVec 9} {s : State} {rest : Byte → State → Flow}
    (hstall : Q (stall (.draw lo hi) s.popRng))
    (hfault : ∀ v, Q (faultEntry .rngRange (s.popRng.recordDraw ⟨lo, hi, v⟩)))
    (hrest : ∀ v, inRange lo hi v = true → (rest v (s.popRng.recordDraw ⟨lo, hi, v⟩)).Sat P Q) :
    (withDraw lo hi s rest).Sat P Q := by
  rcases withDraw_cases lo hi s rest with ⟨_, h⟩ | ⟨v, _, _, h⟩ | ⟨v, _, hv, h⟩ <;> rw [h]
  · exact hstall
  · exact hfault v
  · exact hrest v hv

/-- The next reply is the first of the replies from now on. -/
theorem nextReply_eq_replyAt (s : State) : s.nextReply = s.replyAt 0 := by
  unfold State.nextReply State.replyAt
  cases s.rngIn <;> simp

/-- After a draw the replies from then on are those that followed. -/
@[simp] theorem replyAt_afterDraw (s : State) (d : Draw) (j : Nat) :
    (s.popRng.recordDraw d).replyAt j = s.replyAt (j + 1) := by
  have h : s.draws.length + 1 + j = s.draws.length + (j + 1) := by omega
  unfold State.replyAt
  cases hs : s.rngIn <;> simp [hs, h]

@[simp] theorem answerAt_afterDraw (s : State) (d : Draw) (j : Nat) :
    (s.popRng.recordDraw d).answerAt j = s.answerAt (j + 1) := by
  simp [State.answerAt]

@[simp] theorem answered_afterDraw (s : State) (d : Draw) (j : Nat) (lo : Byte) (hi : BitVec 9) :
    (s.popRng.recordDraw d).answered j lo hi = s.answered (j + 1) lo hi := by
  simp [State.answered]

/-- Replies depend on the scheduled ones and on the number of draws alone. -/
theorem replyAt_congr {s t : State} (h : t.rngIn = s.rngIn) (h' : t.draws = s.draws) (j : Nat) :
    t.replyAt j = s.replyAt j := by
  simp [State.replyAt, h, h']

theorem answerAt_congr {s t : State} (h : t.rngIn = s.rngIn) (h' : t.draws = s.draws) (j : Nat) :
    t.answerAt j = s.answerAt j := by
  simp [State.answerAt, replyAt_congr h h']

theorem answered_congr {s t : State} (h : t.rngIn = s.rngIn) (h' : t.draws = s.draws) (j : Nat) (lo : Byte)
    (hi : BitVec 9) : t.answered j lo hi = s.answered j lo hi := by
  simp [State.answered, replyAt_congr h h']

/-- A draw whose answer is in range goes on with it. -/
theorem withDraw_answered {lo : Byte} {hi : BitVec 9} {s : State} (rest : Byte → State → Flow)
    (h : s.answered 0 lo hi = true) :
    withDraw lo hi s rest = rest (s.answerAt 0) (s.popRng.recordDraw ⟨lo, hi, s.answerAt 0⟩) := by
  unfold State.answered at h
  unfold withDraw State.answerAt
  rw [nextReply_eq_replyAt]
  cases hr : s.replyAt 0 with
  | never => simp [hr] at h
  | ack v => simp only [hr] at h; simp [h]

/-- A draw whose answer is out of range raises RNG_RANGE (60_exceptions R253). -/
theorem withDraw_outOfRange {lo : Byte} {hi : BitVec 9} {s : State} {v : Byte} (rest : Byte → State → Flow)
    (h : s.replyAt 0 = .ack v) (hv : inRange lo hi v = false) :
    withDraw lo hi s rest = .halt (faultEntry .rngRange (s.popRng.recordDraw ⟨lo, hi, v⟩)) := by
  unfold withDraw
  rw [nextReply_eq_replyAt, h]
  simp [hv]

/-- A draw that is never answered stalls (60_exceptions R268). -/
theorem withDraw_never {lo : Byte} {hi : BitVec 9} {s : State} (rest : Byte → State → Flow) (h : s.replyAt 0 = .never) :
    withDraw lo hi s rest = .halt (stall (.draw lo hi) s.popRng) := by
  unfold withDraw
  rw [nextReply_eq_replyAt, h]

/-- A command always answers a next state. -/
theorem command_eq (body : State → Flow) (s : State) : command body s = .next (body s).final := rfl

end Sys2Proof.Machine
end

