-- ==== Sys2Proof/Laws/Memory.lean ====
section
/-! SUPPORT. The laws of the frame buffer as memory: a read after a write, the canonical form is kept by every operation,
and two canonical memories with the same reads are equal. -/

namespace Sys2Proof.Machine

/-- A read gives the value written to the cell. -/
@[simp] theorem Memory.read_write_same (m : Memory) (k : Nat) (v : Colour) : Memory.read (Memory.write m k v) k = some v := by
  induction m with
  | nil => simp [Memory.write, Memory.read]
  | cons e m ih =>
    obtain ⟨a, c⟩ := e
    simp only [Memory.write]
    split
    · simp [Memory.read]
    · split
      · simp [Memory.read]
      · rename_i h
        simp [Memory.read, Ne.symm h, ih]

/-- A write leaves every other cell as it was. -/
theorem Memory.read_write_other (m : Memory) {k a : Nat} (v : Colour) (h : a ≠ k) :
    Memory.read (Memory.write m k v) a = Memory.read m a := by
  induction m with
  | nil => simp [Memory.write, Memory.read, Ne.symm h]
  | cons e m ih =>
    obtain ⟨b, c⟩ := e
    simp only [Memory.write]
    split
    · simp [Memory.read, Ne.symm h]
    · split
      · rename_i hk
        subst hk
        simp [Memory.read, Ne.symm h]
      · simp [Memory.read, ih]

/-- What a read gives after a write, at every address. -/
theorem Memory.read_write (m : Memory) (k a : Nat) (v : Colour) :
    Memory.read (Memory.write m k v) a = if a = k then some v else Memory.read m a := by
  split
  · next h => rw [h, Memory.read_write_same]
  · next h => exact Memory.read_write_other m v h

theorem Memory.risesFrom_mono {lo lo' : Nat} {m : Memory} (h : lo' ≤ lo) (hm : Memory.risesFrom lo m = true) :
    Memory.risesFrom lo' m = true := by
  cases m with
  | nil => rfl
  | cons e m =>
    obtain ⟨a, c⟩ := e
    simp only [Memory.risesFrom, Bool.and_eq_true, decide_eq_true_eq] at hm ⊢
    exact ⟨h.trans hm.1, hm.2⟩

theorem Memory.risesFrom_write {lo k : Nat} (v : Colour) {m : Memory} (hk : lo ≤ k) (hm : Memory.risesFrom lo m = true) :
    Memory.risesFrom lo (Memory.write m k v) = true := by
  induction m generalizing lo with
  | nil => simp [Memory.write, Memory.risesFrom, hk]
  | cons e m ih =>
    obtain ⟨a, c⟩ := e
    simp only [Memory.risesFrom, Bool.and_eq_true, decide_eq_true_eq] at hm
    simp only [Memory.write]
    split
    · next h => simp only [Memory.risesFrom, Bool.and_eq_true, decide_eq_true_eq]; exact ⟨hk, h, hm.2⟩
    · split
      · next h => subst h; simp only [Memory.risesFrom, Bool.and_eq_true, decide_eq_true_eq]; exact hm
      · next h1 h2 =>
        simp only [Memory.risesFrom, Bool.and_eq_true, decide_eq_true_eq]
        exact ⟨hm.1, ih (by omega) hm.2⟩

theorem Memory.below_write {n k : Nat} (v : Colour) {m : Memory} (hk : k < n) (hm : (m.all fun e => decide (e.1 < n)) = true) :
    ((Memory.write m k v).all fun e => decide (e.1 < n)) = true := by
  induction m with
  | nil => simp [Memory.write, hk]
  | cons e m ih =>
    obtain ⟨a, c⟩ := e
    simp only [List.all_cons, Bool.and_eq_true, decide_eq_true_eq] at hm
    simp only [Memory.write]
    split
    · simp only [List.all_cons, Bool.and_eq_true, decide_eq_true_eq]; exact ⟨hk, hm⟩
    · split
      · simp only [List.all_cons, Bool.and_eq_true, decide_eq_true_eq]; exact ⟨hk, hm.2⟩
      · simp only [List.all_cons, Bool.and_eq_true, decide_eq_true_eq]; exact ⟨hm.1, ih hm.2⟩

/-- A write of an existing cell keeps the canonical form. -/
theorem Memory.wf_write {m : Memory} {k : Nat} (v : Colour) (hm : Memory.wf m = true) (hk : k < 224) :
    Memory.wf (Memory.write m k v) = true := by
  simp only [Memory.wf, Bool.and_eq_true] at hm ⊢
  exact ⟨Memory.risesFrom_write v (Nat.zero_le k) hm.1, Memory.below_write v hk hm.2⟩

/-- The memory right after reset has the canonical form. -/
theorem Memory.wf_nil : Memory.wf [] = true := rfl

/-- Below the first listed address nothing is listed. -/
theorem Memory.read_below {lo k : Nat} {m : Memory} (hm : Memory.risesFrom lo m = true) (hk : k < lo) :
    Memory.read m k = none := by
  induction m generalizing lo with
  | nil => rfl
  | cons e m ih =>
    obtain ⟨a, c⟩ := e
    simp only [Memory.risesFrom, Bool.and_eq_true, decide_eq_true_eq] at hm
    have hne : a ≠ k := by omega
    simp only [Memory.read, hne, if_false]
    exact ih hm.2 (by omega)

theorem Memory.ext_of_risesFrom {lo : Nat} {m m' : Memory} (hm : Memory.risesFrom lo m = true)
    (hm' : Memory.risesFrom lo m' = true) (h : ∀ k, Memory.read m k = Memory.read m' k) : m = m' := by
  induction m generalizing lo m' with
  | nil =>
    cases m' with
    | nil => rfl
    | cons e m' => exact absurd (h e.1) (by simp [Memory.read])
  | cons e m ih =>
    obtain ⟨a, c⟩ := e
    cases m' with
    | nil => exact absurd (h a) (by simp [Memory.read])
    | cons e' m' =>
      obtain ⟨a', c'⟩ := e'
      simp only [Memory.risesFrom, Bool.and_eq_true, decide_eq_true_eq] at hm hm'
      have ha : a = a' := by
        rcases Nat.lt_trichotomy a a' with hlt | heq | hgt
        · have h1 := h a
          simp only [Memory.read, if_true, Nat.ne_of_gt hlt, if_false] at h1
          rw [Memory.read_below hm'.2 (by omega)] at h1
          exact absurd h1 (by simp)
        · exact heq
        · have h1 := h a'
          simp only [Memory.read, if_true, Nat.ne_of_gt hgt, if_false] at h1
          rw [Memory.read_below hm.2 (by omega)] at h1
          exact absurd h1 (by simp)
      subst ha
      have hc : c = c' := by simpa [Memory.read] using h a
      subst hc
      congr 1
      refine ih hm.2 hm'.2 fun k => ?_
      by_cases hk : a = k
      · subst hk
        rw [Memory.read_below hm.2 (by omega), Memory.read_below hm'.2 (by omega)]
      · simpa [Memory.read, hk] using h k

/-- Canonical memories with the same reads are the same data. -/
theorem Memory.ext {m m' : Memory} (hm : Memory.wf m = true) (hm' : Memory.wf m' = true)
    (h : ∀ k, Memory.read m k = Memory.read m' k) : m = m' := by
  simp only [Memory.wf, Bool.and_eq_true] at hm hm'
  exact Memory.ext_of_risesFrom hm.1 hm'.1 h

/-- FB_VALID[k] = 1 iff the cell holds a value. -/
theorem Memory.valid_iff (m : Memory) (k : Nat) : Memory.valid m k = true ↔ ∃ c, Memory.read m k = some c := by
  simp [Memory.valid, Option.isSome_iff_exists]

end Sys2Proof.Machine
end

