-- ==== Sys2Proof/Laws/FrameBuffer.lean ====
section
/-! SUPPORT. What the whole-buffer fill and the validity summary say of every cell. -/

namespace Sys2Proof.Machine

/-- The fill as one fold over the row-major traversal. -/
theorem fillFrom_eq_foldl (colour : Row → Col → Colour) (m : Memory) :
    fillFrom colour m = rowMajor.foldl (fun m k => Memory.write m k.val (colour (rowOf k) (colOf k))) m := by
  simp [fillFrom, rowMajor, List.foldl_flatMap, List.foldl_map]

/-- A fold of writes of one value function over cells: what each address reads as after it. -/
theorem read_foldl_write (f : Cell → Colour) (l : List Cell) (m : Memory) (a : Nat) :
    Memory.read (l.foldl (fun m k => Memory.write m k.val (f k)) m) a =
      if h : a < 224 then (if (⟨a, h⟩ : Cell) ∈ l then some (f ⟨a, h⟩) else Memory.read m a) else Memory.read m a := by
  induction l generalizing m with
  | nil => simp
  | cons k l ih =>
    rw [List.foldl_cons, ih]
    by_cases h : a < 224
    · simp only [h, dite_true, Memory.read_write, List.mem_cons, Fin.ext_iff]
      by_cases h1 : (⟨a, h⟩ : Cell) ∈ l
      · simp [h1]
      · by_cases h2 : a = k.val
        · subst h2
          simp
        · simp [h1, h2]
    · have hk : a ≠ k.val := by have := k.isLt; omega
      simp [h, Memory.read_write, hk]

theorem wf_foldl_write (f : Cell → Colour) (l : List Cell) {m : Memory} (hm : Memory.wf m = true) :
    Memory.wf (l.foldl (fun m k => Memory.write m k.val (f k)) m) = true := by
  induction l generalizing m with
  | nil => exact hm
  | cons k l ih => exact ih (Memory.wf_write (f k) hm k.isLt)

/-- After a fill every cell holds its colour and no other address is listed anew. -/
theorem read_fillFrom (colour : Row → Col → Colour) (m : Memory) (a : Nat) :
    Memory.read (fillFrom colour m) a =
      if h : a < 224 then some (colour (rowOf ⟨a, h⟩) (colOf ⟨a, h⟩)) else Memory.read m a := by
  rw [fillFrom_eq_foldl, read_foldl_write (fun k => colour (rowOf k) (colOf k))]
  simp [mem_rowMajor]

/-- After a fill the cell of row r and column c holds colour(r, c). -/
theorem read_fillFrom_idx (colour : Row → Col → Colour) (m : Memory) (r : Row) (c : Col) :
    Memory.read (fillFrom colour m) (idx r c).val = some (colour r c) := by
  rw [read_fillFrom]
  simp [(idx r c).isLt]

/-- A fill keeps the canonical form. -/
theorem wf_fillFrom (colour : Row → Col → Colour) {m : Memory} (hm : Memory.wf m = true) :
    Memory.wf (fillFrom colour m) = true := by
  rw [fillFrom_eq_foldl]
  exact wf_foldl_write (fun k => colour (rowOf k) (colOf k)) _ hm

/-- STATUS.FB_ALL_VALID says that every cell has been written. -/
theorem fbAllValid_iff (s : State) : s.fbAllValid = true ↔ ∀ k < 224, ∃ c, Memory.read s.fb k = some c := by
  simp only [State.fbAllValid, List.all_eq_true, Memory.valid_iff]
  exact ⟨fun h k hk => h ⟨k, hk⟩ (by simp [linear]), fun h k _ => h k.val k.isLt⟩

/-- A render makes every cell valid, so a frame transfer after it cannot raise UNDEF_READ. -/
theorem fbAllValid_renderWith (colour : Row → Col → Colour) (s : State) : (renderWith colour s).fbAllValid = true := by
  rw [fbAllValid_iff]
  intro k hk
  rw [renderWith, State.setFb]
  exact ⟨_, by rw [read_fillFrom, dif_pos hk]⟩

/-- Each colour of a frame is the cell's, where every cell is valid. -/
theorem entry_frameCells {s : State} (h : s.fbAllValid = true) (k : Cell) :
    Memory.read s.fb k.val = some (entry (frameCells s.fb) k) := by
  obtain ⟨c, hc⟩ := (fbAllValid_iff s).1 h k.val k.isLt
  simp [frameCells, hc]

end Sys2Proof.Machine
end

