-- ==== Sys2Proof/Laws/Device.lean ====
section
/-! SUPPORT. Once and for all what a frame transfer can do. -/

namespace Sys2Proof.Machine

/-- Everything a frame transfer can do: fault, stall at a beat, or deliver the frame (40_frame_buffer R110 to R112). -/
theorem present_cases (fps : Fps) (s : State) :
    (s.fbAllValid = false ∧ present fps s = .halt (faultEntry .undefRead s)) ∨
    (∃ k, s.fbAllValid = true ∧ s.nextSink = .stopsAt k ∧ present fps s = .halt (stall (.beat fps k) s.popSink)) ∨
    (s.fbAllValid = true ∧ s.nextSink = .takesFrame ∧
      present fps s = .go (s.popSink.recordFrame ⟨fps, frameCells s.fb⟩)) := by
  unfold present
  cases h : s.fbAllValid with
  | false => exact .inl ⟨rfl, by simp⟩
  | true =>
    cases h' : s.nextSink with
    | takesFrame => exact .inr (.inr ⟨rfl, rfl, by simp⟩)
    | stopsAt k => exact .inr (.inl ⟨k, rfl, rfl, by simp⟩)

/-- A frame transfer satisfies what its three outcomes satisfy. -/
theorem sat_present {P Q : State → Prop} {fps : Fps} {s : State}
    (hfault : s.fbAllValid = false → Q (faultEntry .undefRead s))
    (hstall : s.fbAllValid = true → ∀ k, Q (stall (.beat fps k) s.popSink))
    (hframe : s.fbAllValid = true → P (s.popSink.recordFrame ⟨fps, frameCells s.fb⟩)) : (present fps s).Sat P Q := by
  rcases present_cases fps s with ⟨h, e⟩ | ⟨k, h, _, e⟩ | ⟨h, _, e⟩ <;> rw [e]
  · exact hfault h
  · exact hstall h k
  · exact hframe h

/-- A frame transfer to a sink that takes the frame. -/
theorem present_takes {fps : Fps} {s : State} (h : s.fbAllValid = true) (h' : s.nextSink = .takesFrame) :
    present fps s = .go (s.popSink.recordFrame ⟨fps, frameCells s.fb⟩) := by
  simp [present, h, h']

/-- An UPDATE whose render makes every cell valid, with a sink that takes the frame: the frame enters the history and the
advance follows (42_effect_control R156). -/
theorem update_takes {p : Config.Parameters} {fps : Fps} {render : State → State} (advance : State → Flow) {s : State}
    (h : (render s).fbAllValid = true) (h' : (render s).nextSink = .takesFrame) :
    update p fps render advance s =
      advance (pace p fps ((render s).popSink.recordFrame ⟨fps, frameCells (render s).fb⟩)) := by
  rw [update, present_takes h h', Flow.andThen_go]

end Sys2Proof.Machine
end

