-- ==== Sys2Proof/Laws/Draws.lean ====
section
/-! SUPPORT. Runs of answered draws in closed form: a loop that draws one value per element and updates one field of the
state with it leaves the state with those draws made and that field folded over them. -/

namespace Sys2Proof.Machine

/-- The state with its next n draws made, all of them from [lo, hi). -/
def State.drawn (s : State) (n : Nat) (lo : Byte) (hi : BitVec 9) : State :=
  { s with rngIn := s.rngIn.drop n, draws := s.draws ++ s.drawsMade n lo hi }

@[simp] theorem drawsMade_length (s : State) (n : Nat) (lo : Byte) (hi : BitVec 9) : (s.drawsMade n lo hi).length = n := by
  simp [State.drawsMade]

theorem drawsMade_succ (s : State) (n : Nat) (lo : Byte) (hi : BitVec 9) (d : Draw) :
    s.drawsMade (n + 1) lo hi = ⟨lo, hi, s.answerAt 0⟩ :: (s.popRng.recordDraw d).drawsMade n lo hi := by
  simp [State.drawsMade, List.range_succ_eq_map, List.map_map, Function.comp_def]

@[simp] theorem drawn_zero (s : State) (lo : Byte) (hi : BitVec 9) : s.drawn 0 lo hi = s := by
  simp [State.drawn, State.drawsMade]

/-- A first draw and n more are n + 1 draws. -/
theorem drawn_afterDraw (s : State) (n : Nat) (lo : Byte) (hi : BitVec 9) :
    (s.popRng.recordDraw ⟨lo, hi, s.answerAt 0⟩).drawn n lo hi = s.drawn (n + 1) lo hi := by
  unfold State.drawn
  rw [drawsMade_succ s n lo hi ⟨lo, hi, s.answerAt 0⟩]
  simp [State.popRng, State.recordDraw]

/-- n draws and one more are n + 1 draws. -/
theorem drawn_succ (s : State) (n : Nat) (lo : Byte) (hi : BitVec 9) :
    (s.drawn n lo hi).popRng.recordDraw ⟨lo, hi, s.answerAt n⟩ = s.drawn (n + 1) lo hi := by
  simp [State.drawn, State.popRng, State.recordDraw, State.drawsMade, List.range_succ]

@[simp] theorem drawn_replyAt (s : State) (n : Nat) (lo : Byte) (hi : BitVec 9) (j : Nat) :
    (s.drawn n lo hi).replyAt j = s.replyAt (n + j) := by
  simp [State.replyAt, State.drawn, Nat.add_assoc]

@[simp] theorem drawn_answerAt (s : State) (n : Nat) (lo : Byte) (hi : BitVec 9) (j : Nat) :
    (s.drawn n lo hi).answerAt j = s.answerAt (n + j) := by
  simp [State.answerAt]

@[simp] theorem drawn_answered (s : State) (n : Nat) (lo : Byte) (hi : BitVec 9) (j : Nat) (lo' : Byte) (hi' : BitVec 9) :
    (s.drawn n lo hi).answered j lo' hi' = s.answered (n + j) lo' hi' := by
  simp [State.answered]

/-- One field of State that draws do not touch: how to read it and how to replace it. -/
structure FieldLens (β : Type) where
  get : State → β
  set : State → β → State
  get_set : ∀ s b, get (set s b) = b
  set_set : ∀ s b b', set (set s b) b' = set s b'
  set_get : ∀ s, set s (get s) = s
  set_draw : ∀ s b d, (set s b).popRng.recordDraw d = set (s.popRng.recordDraw d) b
  get_draw : ∀ s d, get (s.popRng.recordDraw d) = get s
  set_rngIn : ∀ s b, (set s b).rngIn = s.rngIn
  set_draws : ∀ s b, (set s b).draws = s.draws
  set_drawn : ∀ s b n lo hi, (set s b).drawn n lo hi = set (s.drawn n lo hi) b

/-- HEAT as a field. -/
def heatField : FieldLens (Bank Byte) :=
  ⟨State.heat, State.setHeat, fun _ _ => rfl, fun _ _ _ => rfl, fun _ => rfl, fun _ _ _ => rfl, fun _ _ => rfl,
   fun _ _ => rfl, fun _ _ => rfl, fun _ _ _ _ _ => rfl⟩

/-- HEAD as a field. -/
def headField : FieldLens (Bank Bool) :=
  ⟨State.head, State.setHead, fun _ _ => rfl, fun _ _ _ => rfl, fun _ => rfl, fun _ _ _ => rfl, fun _ _ => rfl,
   fun _ _ => rfl, fun _ _ => rfl, fun _ _ _ _ _ => rfl⟩

/-- The part of a loop that draws one value for an element and folds it into a field. -/
def FieldLens.part {β α : Type} (F : FieldLens β) (lo : Byte) (hi : BitVec 9) (f : α → Byte → β → β) (a : α) (s : State) :
    Flow :=
  withDraw lo hi s fun v s => .go (F.set s (f a v (F.get s)))

/-- The field after the elements of the list, the j-th with the j-th answer from now on. -/
def FieldLens.folded {β α : Type} (F : FieldLens β) (f : α → Byte → β → β) (s : State) : List α → Nat → β → β
  | [], _, b => b
  | a :: l, j, b => F.folded f s l (j + 1) (f a (s.answerAt j) b)

theorem FieldLens.folded_congr {β α : Type} (F : FieldLens β) (f : α → Byte → β → β) {s t : State} (l : List α) {i j : Nat}
    (h : ∀ n, t.answerAt (i + n) = s.answerAt (j + n)) (b : β) : F.folded f t l i b = F.folded f s l j b := by
  induction l generalizing i j b with
  | nil => rfl
  | cons a l ih =>
    have h0 := h 0
    simp only [Nat.add_zero] at h0
    simp only [FieldLens.folded, h0]
    exact ih (fun n => by have := h (n + 1); rwa [Nat.add_right_comm, ← Nat.add_assoc, Nat.add_right_comm j] at *) _

/-- A loop of answered draws: the draws are made and the field is folded over their answers. -/
theorem FieldLens.loop_answered {β α : Type} (F : FieldLens β) (lo : Byte) (hi : BitVec 9) (f : α → Byte → β → β)
    (l : List α) (s : State) (h : ∀ j < l.length, s.answered j lo hi = true) :
    Flow.loop (F.part lo hi f) l s = .go (F.set (s.drawn l.length lo hi) (F.folded f s l 0 (F.get s))) := by
  induction l generalizing s with
  | nil => simp [Flow.loop, FieldLens.folded, F.set_get]
  | cons a l ih =>
    have hnext : ∀ s b j, (F.set s b).answered j lo hi = s.answered j lo hi := fun s b j =>
      answered_congr (F.set_rngIn s b) (F.set_draws s b) j lo hi
    simp only [Flow.loop, FieldLens.part]
    rw [withDraw_answered _ (h 0 (by simp))]
    simp only [Flow.andThen_go]
    rw [F.get_draw]
    have hl := ih (F.set (s.popRng.recordDraw ⟨lo, hi, s.answerAt 0⟩) (f a (s.answerAt 0) (F.get s))) fun j hj => by
      rw [hnext, answered_afterDraw]
      exact h (j + 1) (by simpa using hj)
    rw [hl, F.set_drawn, F.set_set, F.get_set, drawn_afterDraw]
    simp only [List.length_cons, FieldLens.folded]
    rw [F.folded_congr f (s := s) l (i := 0) (j := 1)]
    intro n
    rw [answerAt_congr (F.set_rngIn _ _) (F.set_draws _ _), answerAt_afterDraw]
    congr 1
    omega

/-- A loop whose draws are answered up to one that is out of range: it raises RNG_RANGE there, the draws made and the field
folded over the elements before. -/
theorem FieldLens.loop_stops {β α : Type} (F : FieldLens β) (lo : Byte) (hi : BitVec 9) (f : α → Byte → β → β)
    (l : List α) (a : α) (l' : List α) (s : State) (v : Byte) (h : ∀ j < l.length, s.answered j lo hi = true)
    (hr : s.replyAt l.length = .ack v) (hv : inRange lo hi v = false) :
    Flow.loop (F.part lo hi f) (l ++ a :: l') s =
      .halt (faultEntry .rngRange (F.set (s.drawn (l.length + 1) lo hi) (F.folded f s l 0 (F.get s)))) := by
  rw [Flow.loop_append, F.loop_answered lo hi f l s h]
  have hr' : (F.set (s.drawn l.length lo hi) (F.folded f s l 0 (F.get s))).replyAt 0 = .ack v := by
    rw [replyAt_congr (F.set_rngIn _ _) (F.set_draws _ _), drawn_replyAt]
    simpa using hr
  have hans : s.answerAt l.length = v := by simp [State.answerAt, hr]
  simp only [Flow.andThen_go, Flow.loop, FieldLens.part]
  rw [withDraw_outOfRange _ hr' hv, F.set_draw, ← hans, drawn_succ]
  rfl

/-- A loop whose draws are answered up to one that never is: it stalls there, the draws made and the field folded over the
elements before. -/
theorem FieldLens.loop_waits {β α : Type} (F : FieldLens β) (lo : Byte) (hi : BitVec 9) (f : α → Byte → β → β)
    (l : List α) (a : α) (l' : List α) (s : State) (h : ∀ j < l.length, s.answered j lo hi = true)
    (hr : s.replyAt l.length = .never) :
    Flow.loop (F.part lo hi f) (l ++ a :: l') s =
      .halt (stall (.draw lo hi) (F.set (s.drawn l.length lo hi) (F.folded f s l 0 (F.get s))).popRng) := by
  rw [Flow.loop_append, F.loop_answered lo hi f l s h]
  have hr' : (F.set (s.drawn l.length lo hi) (F.folded f s l 0 (F.get s))).replyAt 0 = .never := by
    rw [replyAt_congr (F.set_rngIn _ _) (F.set_draws _ _), drawn_replyAt]
    simpa using hr
  simp only [Flow.andThen_go, Flow.loop, FieldLens.part]
  rw [withDraw_never _ hr']
  rfl

end Sys2Proof.Machine
end

