-- ==== Sys2Proof/Laws/Parameters.lean ====
section
/-! SUPPORT. The parameters of R7 and R8 that this hardware has, field by field. -/

namespace Sys2Proof.Machine

@[simp] theorem hardware_fireInit : hardware.fireInit = Config.fireInit := rfl
@[simp] theorem hardware_fireAdd : hardware.fireAdd = Config.fireAdd := rfl
@[simp] theorem hardware_fireSub : hardware.fireSub = Config.fireSub := rfl
@[simp] theorem hardware_fireSeedLo : hardware.fireSeedLo = Config.fireSeedLo := rfl
@[simp] theorem hardware_fireSeedHi : hardware.fireSeedHi = Config.fireSeedHi := rfl
@[simp] theorem hardware_rainHeadOdds : hardware.rainHeadOdds = Config.rainHeadOdds := rfl
@[simp] theorem hardware_rainAttempts : hardware.rainAttempts = Config.rainAttempts := rfl
@[simp] theorem hardware_rainFade : hardware.rainFade = Config.rainFade := rfl
@[simp] theorem hardware_rainHeadLevel : hardware.rainHeadLevel = Config.rainHeadLevel := rfl
@[simp] theorem hardware_starSpawnOdds : hardware.starSpawnOdds = Config.starSpawnOdds := rfl
@[simp] theorem hardware_starLo : hardware.starLo = Config.starLo := rfl
@[simp] theorem hardware_starHi : hardware.starHi = Config.starHi := rfl
@[simp] theorem hardware_starFade : hardware.starFade = Config.starFade := rfl
@[simp] theorem hardware_sweepInit : hardware.sweepInit = Config.sweepInit := rfl
@[simp] theorem hardware_sweepStep : hardware.sweepStep = Config.sweepStep := rfl
@[simp] theorem hardware_fpsFire : hardware.fpsFire = Config.fpsFire := rfl
@[simp] theorem hardware_fpsRain : hardware.fpsRain = Config.fpsRain := rfl
@[simp] theorem hardware_fpsStar : hardware.fpsStar = Config.fpsStar := rfl
@[simp] theorem hardware_fpsSweep : hardware.fpsSweep = Config.fpsSweep := rfl
@[simp] theorem hardware_firePalette : hardware.firePalette = Config.firePalette := rfl
@[simp] theorem hardware_huePalette : hardware.huePalette = Config.huePalette := rfl
@[simp] theorem hardware_paletteWrap : hardware.paletteWrap = Config.paletteWrap := rfl
@[simp] theorem hardware_blend : hardware.blend = blend := rfl
@[simp] theorem hardware_rainColour : hardware.rainColour = rainColour := rfl
@[simp] theorem hardware_clkHz : hardware.clkHz = Config.clkHz := rfl
@[simp] theorem hardware_cycles : hardware.cycles = Config.cycles := rfl

/-- The interpolation of this hardware. -/
@[simp] theorem interpOf_hardware (P : Palette) (i : Byte) : interpOf hardware P i = interp P i := rfl

end Sys2Proof.Machine
end

