-- ==== Sys2Proof/Laws/PerInstr.lean ====
section
/-! SUPPORT. Per instruction: the word of a command matches its row of spec/opcode_table.json (30_encoding R77). -/

namespace Sys2Proof.Laws.TableRow

/-- The row's `match` (R77). -/
def rowMatch : Instr → Word
  | .nop => 0x00000000
  | .initFire => 0x10000000
  | .initRain => 0x14000000
  | .initStar => 0x18000000
  | .initSweep => 0x1C000000
  | .renderFire => 0x20000000
  | .renderRain => 0x24000000
  | .renderStar => 0x28000000
  | .renderSweep => 0x2C000000
  | .presentFire => 0x30000000
  | .presentRain => 0x34000000
  | .presentStar => 0x38000000
  | .presentSweep => 0x3C000000
  | .advanceFire => 0x40000000
  | .advanceRain => 0x44000000
  | .advanceStar => 0x48000000
  | .advanceSweep => 0x4C000000
  | .updateFire => 0x50000000
  | .updateRain => 0x54000000
  | .updateStar => 0x58000000
  | .updateSweep => 0x5C000000
  | .ldc _ => 0x60000000
  | .fill => 0x70000000
  | .set _ _ => 0x80000000
  | .get _ _ => 0x90000000
  | .interpFire _ => 0xA0000000
  | .interpHue _ => 0xA1000000

/-- The row's `mask` (R77). -/
def rowMask : Instr → Word
  | .nop => 0xFFFFFFFF
  | .initFire => 0xFFFFFFFF
  | .initRain => 0xFFFFFFFF
  | .initStar => 0xFFFFFFFF
  | .initSweep => 0xFFFFFFFF
  | .renderFire => 0xFFFFFFFF
  | .renderRain => 0xFFFFFFFF
  | .renderStar => 0xFFFFFFFF
  | .renderSweep => 0xFFFFFFFF
  | .presentFire => 0xFFFFFFFF
  | .presentRain => 0xFFFFFFFF
  | .presentStar => 0xFFFFFFFF
  | .presentSweep => 0xFFFFFFFF
  | .advanceFire => 0xFFFFFFFF
  | .advanceRain => 0xFFFFFFFF
  | .advanceStar => 0xFFFFFFFF
  | .advanceSweep => 0xFFFFFFFF
  | .updateFire => 0xFFFFFFFF
  | .updateRain => 0xFFFFFFFF
  | .updateStar => 0xFFFFFFFF
  | .updateSweep => 0xFFFFFFFF
  | .ldc _ => 0xFF000000
  | .fill => 0xFFFFFFFF
  | .set _ _ => 0xFFFFFF00
  | .get _ _ => 0xFFFFFF00
  | .interpFire _ => 0xFFFFFF00
  | .interpHue _ => 0xFFFFFF00

/-- `(word & mask) == match` (R77). -/
def Statement (i : Instr) : Prop := encode i &&& rowMask i = rowMatch i

theorem nop : Statement .nop := by unfold Statement; decide

theorem initFire : Statement .initFire := by unfold Statement; decide

theorem initRain : Statement .initRain := by unfold Statement; decide

theorem initStar : Statement .initStar := by unfold Statement; decide

theorem initSweep : Statement .initSweep := by unfold Statement; decide

theorem renderFire : Statement .renderFire := by unfold Statement; decide

theorem renderRain : Statement .renderRain := by unfold Statement; decide

theorem renderStar : Statement .renderStar := by unfold Statement; decide

theorem renderSweep : Statement .renderSweep := by unfold Statement; decide

theorem presentFire : Statement .presentFire := by unfold Statement; decide

theorem presentRain : Statement .presentRain := by unfold Statement; decide

theorem presentStar : Statement .presentStar := by unfold Statement; decide

theorem presentSweep : Statement .presentSweep := by unfold Statement; decide

theorem advanceFire : Statement .advanceFire := by unfold Statement; decide

theorem advanceRain : Statement .advanceRain := by unfold Statement; decide

theorem advanceStar : Statement .advanceStar := by unfold Statement; decide

theorem advanceSweep : Statement .advanceSweep := by unfold Statement; decide

theorem updateFire : Statement .updateFire := by unfold Statement; decide

theorem updateRain : Statement .updateRain := by unfold Statement; decide

theorem updateStar : Statement .updateStar := by unfold Statement; decide

theorem updateSweep : Statement .updateSweep := by unfold Statement; decide

theorem ldc (v : Colour) : Statement (.ldc v) := by
  simp only [Statement, encode, rowMask, rowMatch]
  apply BitVec.eq_of_getLsbD_eq
  intro j hj
  simp only [BitVec.getLsbD_and, BitVec.getLsbD_append]
  interval_cases j <;> simp

theorem fill : Statement .fill := by unfold Statement; decide

theorem set (row col : BitVec 4) : Statement (.set row col) := by
  simp only [Statement, encode, encodeA, rowMask, rowMatch]
  apply BitVec.eq_of_getLsbD_eq
  intro j hj
  simp only [BitVec.getLsbD_and, BitVec.getLsbD_append]
  interval_cases j <;> simp

theorem get (row col : BitVec 4) : Statement (.get row col) := by
  simp only [Statement, encode, encodeA, rowMask, rowMatch]
  apply BitVec.eq_of_getLsbD_eq
  intro j hj
  simp only [BitVec.getLsbD_and, BitVec.getLsbD_append]
  interval_cases j <;> simp

theorem interpFire (i : Byte) : Statement (.interpFire i) := by
  simp only [Statement, encode, encodeP, rowMask, rowMatch]
  apply BitVec.eq_of_getLsbD_eq
  intro j hj
  simp only [BitVec.getLsbD_and, BitVec.getLsbD_append]
  interval_cases j <;> simp

theorem interpHue (i : Byte) : Statement (.interpHue i) := by
  simp only [Statement, encode, encodeP, rowMask, rowMatch]
  apply BitVec.eq_of_getLsbD_eq
  intro j hj
  simp only [BitVec.getLsbD_and, BitVec.getLsbD_append]
  interval_cases j <;> simp

end Sys2Proof.Laws.TableRow
end

