-- ==== Sys2Proof/Tests/Slice0.lean ====
section
/-! SUPPORT. Our own tests: the well-formedness smoke, decoding of words written out from the encoding tables, one-step
tests with the expected values of spec/95_test_vectors.md, and for every statement with hypotheses a witness that meets
them. -/

namespace Sys2Proof.Tests

open Sys2Proof Sys2Proof.Machine

set_option Elab.async false

/-! Helpers. -/

/-- The state an outcome leaves; a state no test expects where there is none. -/
def after : Host.Outcome State Fault Refusal → State
  | .next s => s
  | .fault _ => { State.reset with sweep := 0xEE }
  | .refused _ => { State.reset with sweep := 0xEE }

/-- The state with these answers to its next draws. -/
def answering (s : State) (l : List Byte) : State := { s with rngIn := l.map .ack }

/-- The state after reset with this word offered. -/
def offered (w : Word) : State := State.reset.withFetchWord 32 w.toNat

/-- One step with this word offered after reset. -/
def runOf (w : Word) : State := after (step (offered w))

/-- A state whose cells all hold this colour. -/
def filled (v : Colour) : State := renderWith (fun _ _ => v) State.reset

/-- A block faulted with COORD_RANGE by the word 0x800000F0 (vector E-7). -/
def faulted : State := { State.reset with fault := true, faultCode := .coordRange, faultCmd := 0x800000F0 }

/-- A block stalled in the first draw of an ADVANCE.STAR. -/
def stalledDraw : State :=
  { State.reset with busy := true, cmdWord := 0x48000000, wait := .draw 0 4, host := [.idle, .offer 0] }

/-- A block stalled on the last beat of a PRESENT.RAIN of a white frame. -/
def stalledBeat : State := { filled 0xFFFFFF with busy := true, cmdWord := 0x34000000, wait := .beat 10 223 }

/-- A block held in reset. -/
def held : State := holdReset hardware State.reset

/-! Well-formedness and parameters. -/

theorem test_wf_set_legal : (Instr.set 15 13).wellFormed = true := by decide
theorem test_wf_set_column14 : (Instr.set 0 14).wellFormed = false := by decide
theorem test_wf_set_column15 : (Instr.set 15 15).wellFormed = false := by decide
theorem test_wf_get_column14 : (Instr.get 5 14).wellFormed = false := by decide
theorem test_wf_get_column15 : (Instr.get 0 15).wellFormed = false := by decide

/-- The parameters are legal (00_scope R7). -/
theorem test_parameters_legal : Config.legal hardware = true := by decide

/-- Parameters at the ends of R7's ranges, and one step beyond: FIRE_SEED_LO < FIRE_SEED_HI ≤ 256, STAR_LO ≤ STAR_HI, odds
and frame rates at least 1, odds and attempts below 256. -/
theorem test_parameters_bounds :
    [{ hardware with fireSeedHi := 256 }, { hardware with starLo := 0xFF }, { hardware with rainHeadOdds := 1 },
     { hardware with starSpawnOdds := 255 }, { hardware with rainAttempts := 255 },
     { hardware with fpsStar := 63 }].all Config.legal = true ∧
    [{ hardware with fireSeedHi := 257 }, { hardware with fireSeedHi := 0x20 }, { hardware with starHi := 0x9F },
     { hardware with rainHeadOdds := 0 }, { hardware with starSpawnOdds := 256 }, { hardware with rainAttempts := 256 },
     { hardware with fpsSweep := 0 }].any Config.legal = false := by decide

/-! Decoding: the words of the opcode map R77, bits written out from the formats R71 to R76. -/

theorem test_decode_nop : decode 0b0000_0000000000000000000000000000 = .ok .nop := by decide
theorem test_decode_initFire : decode 0b0001_00_00000000000000000000000000 = .ok .initFire := by decide
theorem test_decode_initRain : decode 0b0001_01_00000000000000000000000000 = .ok .initRain := by decide
theorem test_decode_initStar : decode 0b0001_10_00000000000000000000000000 = .ok .initStar := by decide
theorem test_decode_initSweep : decode 0b0001_11_00000000000000000000000000 = .ok .initSweep := by decide
theorem test_decode_renderFire : decode 0b0010_00_00000000000000000000000000 = .ok .renderFire := by decide
theorem test_decode_renderRain : decode 0b0010_01_00000000000000000000000000 = .ok .renderRain := by decide
theorem test_decode_renderStar : decode 0b0010_10_00000000000000000000000000 = .ok .renderStar := by decide
theorem test_decode_renderSweep : decode 0b0010_11_00000000000000000000000000 = .ok .renderSweep := by decide
theorem test_decode_presentFire : decode 0b0011_00_00000000000000000000000000 = .ok .presentFire := by decide
theorem test_decode_presentRain : decode 0b0011_01_00000000000000000000000000 = .ok .presentRain := by decide
theorem test_decode_presentStar : decode 0b0011_10_00000000000000000000000000 = .ok .presentStar := by decide
theorem test_decode_presentSweep : decode 0b0011_11_00000000000000000000000000 = .ok .presentSweep := by decide
theorem test_decode_advanceFire : decode 0b0100_00_00000000000000000000000000 = .ok .advanceFire := by decide
theorem test_decode_advanceRain : decode 0b0100_01_00000000000000000000000000 = .ok .advanceRain := by decide
theorem test_decode_advanceStar : decode 0b0100_10_00000000000000000000000000 = .ok .advanceStar := by decide
theorem test_decode_advanceSweep : decode 0b0100_11_00000000000000000000000000 = .ok .advanceSweep := by decide
theorem test_decode_updateFire : decode 0b0101_00_00000000000000000000000000 = .ok .updateFire := by decide
theorem test_decode_updateRain : decode 0b0101_01_00000000000000000000000000 = .ok .updateRain := by decide
theorem test_decode_updateStar : decode 0b0101_10_00000000000000000000000000 = .ok .updateStar := by decide
theorem test_decode_updateSweep : decode 0b0101_11_00000000000000000000000000 = .ok .updateSweep := by decide
theorem test_decode_ldc : decode 0b0110_0000_000100100011010001010110 = .ok (.ldc 0x123456) := by decide
theorem test_decode_fill : decode 0b0111_0000000000000000000000000000 = .ok .fill := by decide
theorem test_decode_set : decode 0b1000_00000000000000000000_1101_0011 = .ok (.set 3 13) := by decide
theorem test_decode_get : decode 0b1001_00000000000000000000_1101_1111 = .ok (.get 15 13) := by decide
theorem test_decode_interpFire : decode 0b1010_000_0_0000000000000000_10001111 = .ok (.interpFire 0x8F) := by decide
theorem test_decode_interpHue : decode 0b1010_000_1_0000000000000000_10001000 = .ok (.interpHue 0x88) := by decide

/-- The encoder gives the words of R81's examples (spec/95 part 2, Assembler). -/
theorem test_encode_examples :
    encode (.set 3 13) = 0x800000D3 ∧ encode (.get 15 13) = 0x900000DF ∧ encode (.ldc 0xFFFFFF) = 0x60FFFFFF ∧
    encode (.interpFire 0x8F) = 0xA000008F ∧ encode .updateRain = 0x54000000 := by decide

/-- Vectors E-2 to E-8 and E-11 to E-15: the first decode fault that applies. -/
theorem test_decode_faults :
    [(0x00000001, DecodeFault.reservedBits), (0x70000001, .reservedBits), (0x14000001, .reservedBits),
     (0x61100000, .reservedBits), (0x80000100, .reservedBits), (0x800000F0, .coordRange), (0x900000E5, .coordRange),
     (0xA2000000, .reservedBits), (0xA0000100, .reservedBits), (0xB0000000, .illegalOpcode),
     (0xF0FFFFFF, .illegalOpcode), (0x9F0000E0, .reservedBits)].all
      (fun p : Word × DecodeFault => match decode p.1 with | .error e => e == p.2 | .ok _ => false) = true := by decide

/-- The table's bits of a SET row with its operands, as the host numbers them. -/
theorem test_decodeTableWord :
    decodeTableWord 32 0x800000D3 = some (.set 3 13) ∧ decodeTableWord 32 0xB0000000 = none := by decide

/-! One instruction at a time (spec/95_test_vectors.md). -/

/-- E-1: NOP changes nothing. -/
theorem test_nop : runOf 0x00000000 = State.reset := by rfl

/-- P1, command 1. -/
theorem test_ldc : (runOf 0x60102030).creg = 0x102030 := by decide +kernel

/-- B-2: after FILL the last cell holds CREG. -/
theorem test_fill : Memory.read (after (exec .fill { State.reset with creg := 0xFFFFFF })).fb 223 = some 0xFFFFFF :=
  read_fillFrom_idx _ _ 15 13

/-- B-3: SET 15, 13 writes cell 223 and no other. -/
theorem test_set : (after (exec (.set 15 13) { State.reset with creg := 0x123456 })).fb = [(223, 0x123456)] := by
  decide +kernel

/-- P1, command 7: the column 14 faults before any write. -/
theorem test_set_column14 : (runOf 0x800000E0).status = 0x000E ∧ (runOf 0x800000E0).faultCmd = 0x800000E0 := by
  decide +kernel

/-- B-4: GET 15, 13 reads cell 223. -/
theorem test_get : (after (exec (.get 15 13) { State.reset with fb := [(223, 0x123456)] })).creg = 0x123456 := by
  decide +kernel

/-- E-9: GET of an unwritten cell. -/
theorem test_get_unwritten : (runOf 0x90000000).status = 0x0012 ∧ (runOf 0x90000000).faultCmd = 0x90000000 := by
  decide +kernel

/-- A frame transfer of a filled buffer, for the three tests that follow. -/
theorem present_filled (fps : Fps) :
    (after (command (present fps) (filled 0xFFFFFF))).frames = [⟨fps, frameCells (filled 0xFFFFFF).fb⟩] := by
  rw [command_eq, present_takes (s := filled 0xFFFFFF) (fbAllValid_renderWith _ _) rfl]
  rfl

/-- B-8: PRESENT.FIRE is at 30 fps. -/
theorem test_presentFire : (after (exec .presentFire (filled 0xFFFFFF))).frames.map Frame.fps = [30] :=
  congrArg (List.map Frame.fps) (present_filled 30)

/-- B-7: PRESENT.RAIN is at 10 fps, and every beat is white. -/
theorem test_presentRain :
    (after (exec .presentRain (filled 0xFFFFFF))).frames = [⟨10, frameCells (filled 0xFFFFFF).fb⟩] ∧
    entry (frameCells (filled 0xFFFFFF).fb) 223 = 0xFFFFFF :=
  ⟨present_filled 10,
   Option.some.inj ((entry_frameCells (s := filled 0xFFFFFF) (fbAllValid_renderWith _ _) 223).symm.trans
    (read_fillFrom_idx _ _ 15 13))⟩

/-- S12: PRESENT.STAR is at 60 fps. -/
theorem test_presentStar : (after (exec .presentStar (filled 0xFFFFFF))).frames.map Frame.fps = [60] :=
  congrArg (List.map Frame.fps) (present_filled 60)

/-- E-10: PRESENT.SWEEP with FB unwritten faults and sends no beat. -/
theorem test_presentSweep_unwritten :
    (runOf 0x3C000000).status = 0x0012 ∧ (runOf 0x3C000000).frames = [] := by decide +kernel

/-- The table of Interp(HUE_PAL, i): stops, blends and the wrap region (Interpolator vectors). -/
theorem test_interpHue :
    [(0, 0xFF0000), (1, 0xFD0200), (15, 0xD72700), (16, 0xD52A00), (24, 0xC03F00), (136, 0x00807F), (200, 0x690096),
     (240, 0xD5002B), (241, 0xD70028), (255, 0xFD0002)].all
      (fun p : Byte × Colour => (after (exec (.interpHue p.1) State.reset)).creg == p.2) = true := by decide +kernel

/-- The test palette RAMP of the vectors: its column of the same table. -/
theorem test_interp_ramp :
    [(1, 0x010101), (15, 0x101010), (17, 0x111111), (136, 0x919191), (143, 0x989898), (200, 0xD5D5D5), (240, 0xFFFFFF),
     (241, 0xEFEFEF), (255, 0x0F0F0F)].all
      (fun p : Byte × Colour => interp (Vector.ofFn fun s => BitVec.ofNat 24 (0x111111 * s.val)) p.1 == p.2) = true := by
  decide +kernel

/-- The other reading of PALETTE_WRAP, column "no wrap": the parameter is an argument (R8). -/
theorem test_interp_noWrap :
    [(200, 0x690096), (240, 0xD5002B), (241, 0xD5002B), (255, 0xD5002B)].all
      (fun p : Byte × Colour =>
        (interpHue { hardware with paletteWrap := false } p.1 State.reset).creg == p.2) = true := by decide +kernel

/-- INTERP.FIRE reads FIRE_PAL: at index 0xF0 its stop 15 (R134, R136). -/
theorem test_interpFire : (after (exec (.interpFire 0xF0) State.reset)).creg = Config.firePalette[15] := by rfl

/-- X-2 after INIT.FIRE: every heat index is 0xF0. -/
theorem test_initFire :
    (after (exec .initFire { State.reset with heat := fillBank 1 })).heat = fillBank 0xF0 := by rfl

/-- F-1: rise. -/
theorem test_rise :
    [0x00, 0x20, 0x50, 0x88, 0xDF, 0xE0, 0xE1, 0xE8, 0xF0, 0xFF].map (rise hardware) =
      [0x10, 0x30, 0x60, 0x98, 0xEF, 0xF0, 0xF0, 0xF0, 0xF0, 0xF0] := by decide

/-- F-3 in column 0: the seed goes up one row risen, the new seed comes into row 0. -/
theorem test_advanceFire :
    let t := after (exec .advanceFire
      (answering { State.reset with heat := put State.reset.heat 0 0x20 } (List.replicate 14 0x8F)))
    entry t.heat 0 = 0x8F ∧ entry t.heat 1 = 0x30 := by decide +kernel

/-- Another FIRE_ADD and FIRE_SUB give another rise, by R11: 0x20 + 0x10 - 0x08, and 255 - 0x08 where the sum saturates. -/
theorem test_rise_parameters :
    [0x20, 0xF8].map (rise { hardware with fireAdd := 0x10, fireSub := 0x08 }) = [0x28, 0xF7] := by decide

/-- F-4: the second seed is out of range. -/
theorem test_advanceFire_bad_seed :
    let t := after (step (answering (offered 0x40000000) [0x20, 0x90]))
    t.status = 0x0016 ∧ t.faultCmd = 0x40000000 ∧ entry t.heat (idx 0 0) = 0x20 ∧ entry t.heat (idx 0 1) = 0xF0 := by
  decide +kernel

/-- The colours of the Rain vectors. -/
theorem test_rainColour :
    [0, 1, 8, 15, 63, 111, 159, 207, 255].map rainColour =
      [0x000000, 0x000000, 0x010601, 0x010B01, 0x072F07, 0x0D530D, 0x137713, 0x199B19, 0x1FBF1F] := by decide

/-- An answer 8 in INIT.RAIN faults with HEAD written below that cell only (Rain vectors, INIT.RAIN). -/
theorem test_initRain :
    let t := after (exec .initRain (answering { State.reset with head := fillBank true } [0, 1, 8]))
    t.status = 0x0016 ∧ entry t.head 0 = true ∧ entry t.head 1 = false ∧ entry t.head 2 = true := by decide +kernel

/-- P4, command 2: the head moved from 36 to 122 and rotated to 121. -/
theorem test_advanceRain :
    let t := after (exec .advanceRain (answering { State.reset with head := put State.reset.head 36 true }
      ([36, 122] ++ List.replicate 46 0)))
    entry t.head 121 = true ∧ entry t.head 35 = false := by decide +kernel

/-- R-8 and R-5 on their last cells: a lit head overwrites the faded 52, and 49 without a head fades to 1. -/
theorem test_rain_fade_light :
    let rint := lightHeads hardware (put (fillBank false) 0 true) (fadeRain hardware (put (put (fillBank 0) 0 100) 2 49))
    entry rint 0 = 255 ∧ entry rint 2 = 1 := by decide +kernel

/-- R-10: a first answer of 224. -/
theorem test_advanceRain_bad_draw :
    let t := after (step (answering { offered 0x44000000 with head := put State.reset.head 37 true } [224]))
    t.status = 0x0016 ∧ entry t.head 37 = true ∧ entry t.rint 37 = 0 := by decide +kernel

/-- X-2 after INIT.STAR: every intensity is 0. -/
theorem test_initStar :
    (after (exec .initStar { State.reset with sint := fillBank 1 })).sint = fillBank 0 := by rfl

/-- T-4: the fade first, the spawn second. -/
theorem test_advanceStar :
    let t := after (exec .advanceStar (answering { State.reset with sint := fillBank 0xBE } [0, 37, 0xA0]))
    entry t.sint 37 = 0xA0 ∧ entry t.sint 36 = 0xBC := by decide +kernel

/-- T-6: the spawn value 0x9F is out of range, and the fade ran. -/
theorem test_advanceStar_bad_value :
    let t := after (exec .advanceStar (answering { State.reset with sint := fillBank 0xA0 } [0, 9, 0x9F]))
    t.status = 0x0016 ∧ entry t.sint 9 = 0x9E := by decide +kernel

/-- W-4: INIT.SWEEP. -/
theorem test_initSweep : (after (exec .initSweep { State.reset with sweep := 0x7F })).sweep = 0 := by decide +kernel

/-- W-1: ADVANCE.SWEEP wraps. -/
theorem test_advanceSweep : (after (exec .advanceSweep { State.reset with sweep := 0xFF })).sweep = 0 := by
  decide +kernel

/-- F-7 with the real palette left open: a heat of 0xF0 renders as stop 15 of FIRE_PAL (R134, R172). -/
theorem test_renderFire :
    Memory.read (after (exec .renderFire State.reset)).fb 37 = some Config.firePalette[15] :=
  (read_fillFrom_idx _ _ 5 2).trans (by rfl)

/-- F-7: with FIRE_PALETTE = RAMP as argument, the heats 0x30 and 0x98 show 0x333333 and 0xA1A1A1. -/
theorem test_colourFire_ramp :
    [(0x30, 0x333333), (0x98, 0xA1A1A1)].all
      (fun p : Byte × Colour =>
        colourFire { hardware with firePalette := Vector.ofFn fun s => BitVec.ofNat 24 (0x111111 * s.val) }
          { State.reset with heat := fillBank p.1 } 3 2 == p.2) = true := by decide +kernel

/-- P4, command 3: an intensity of 207 renders as 0x199B19. -/
theorem test_renderRain :
    Memory.read (after (exec .renderRain { State.reset with rint := fillBank 207 })).fb 36 = some 0x199B19 :=
  (read_fillFrom_idx _ _ 4 2).trans (congrArg some (by decide +kernel))

/-- P5, command 4: an intensity of 0xA0 renders as 0xA0A0A0. -/
theorem test_renderStar :
    Memory.read (after (exec .renderStar { State.reset with sint := fillBank 0xA0 })).fb 37 = some 0xA0A0A0 :=
  (read_fillFrom_idx _ _ 5 2).trans (congrArg some (by decide +kernel))

/-- W-5: the counter 0xF1 renders as 0xD70028 in every cell. -/
theorem test_renderSweep :
    Memory.read (after (exec .renderSweep { State.reset with sweep := 0xF1 })).fb 223 = some 0xD70028 :=
  (read_fillFrom_idx _ _ 15 13).trans (congrArg some (by decide +kernel))

/-- C-3: UPDATE.SWEEP delivers the state before the advance at 2 fps, and the counter wraps. -/
theorem test_updateSweep (s : State) (hs : s = { State.reset with sweep := 0xFF }) :
    (after (exec .updateSweep s)).sweep = 0 ∧
    (after (exec .updateSweep s)).frames = [⟨2, frameCells (renderSweep hardware s).fb⟩] := by
  subst hs
  simp only [exec, execUpdateSweep, command_eq, updateSweep]
  rw [update_takes (render := renderSweep hardware) _ (fbAllValid_renderWith _ _) rfl]
  exact ⟨by decide +kernel, rfl⟩

/-- C-2: UPDATE.STAR delivers the state before the advance at 60 fps, then spawns. -/
theorem test_updateStar (s : State) (hs : s = answering State.reset [0, 37, 0xC0]) :
    entry (after (exec .updateStar s)).sint 37 = 0xC0 ∧
    (after (exec .updateStar s)).frames = [⟨60, frameCells (renderStar s).fb⟩] := by
  subst hs
  simp only [exec, execUpdateStar, command_eq, updateStar]
  rw [update_takes (render := renderStar) _ (fbAllValid_renderWith _ _) rfl]
  exact ⟨by decide +kernel, rfl⟩

/-- P3b: UPDATE.FIRE puts the seeds into row 0 after the frame at 30 fps. -/
theorem test_updateFire :
    let t := after (exec .updateFire (answering State.reset (List.replicate 13 0x20 ++ [0x88])))
    entry t.heat (idx 0 13) = 0x88 ∧ t.frames.map Frame.fps = [30] := by
  simp only [exec, execUpdateFire, command_eq, updateFire]
  rw [update_takes (render := renderFire hardware) _ (fbAllValid_renderWith _ _) rfl]
  decide +kernel

/-- C-1: UPDATE.RAIN with 48 draws 0 sets no head, after the frame at 10 fps. -/
theorem test_updateRain :
    let t := after (exec .updateRain (answering State.reset (List.replicate 48 0)))
    entry t.head 0 = false ∧ t.frames.map Frame.fps = [10] := by
  simp only [exec, execUpdateRain, command_eq, updateRain]
  rw [update_takes (render := renderRain hardware) _ (fbAllValid_renderWith _ _) rfl]
  decide +kernel

/-! Reset and the steps that take no command. -/

/-- X-2: after a reset sequence with 224 answers 1 the block is ready. -/
theorem test_reset_sequence :
    (after (step (answering held (List.replicate 224 1)))).cmdReady = true := by decide +kernel

/-- X-1: ten answers 1, then 8. -/
theorem test_reset_bad_draw :
    let t := after (step (answering { held with draws := [] } (List.replicate 10 1 ++ [8])))
    t.status = 0x0016 ∧ t.faultCmd = 0 ∧ t.cmdReady = false ∧ t.draws.length = 11 := by decide +kernel

/-- X-4: the random source never answers: busy, no fault. -/
theorem test_reset_silent :
    (after (step { held with rngIn := [.never] })).status = 0x0001 := by decide +kernel

/-- E-18: a faulted block accepts nothing. -/
theorem test_faulted_takes_nothing :
    step { faulted with host := [.offer 0x60102030] } = .next faulted := by rfl

/-! The assembler (R81, R82; spec/95 part 2, Assembler). -/

theorem test_assemble_set : assembleLine "SET 3, 13".toList = some [0x800000D3] := by decide +kernel
theorem test_assemble_refuses : assembleLine "SET 0, 14".toList = none := by decide +kernel
theorem test_assemble_setc : assembleLine "SETC 15, 13, #0xFF ; white".toList = some [0x600000FF, 0x800000DF] := by
  decide +kernel

/-! Witnesses: for every statement with hypotheses, a state and operands that meet all of them, one for each clause. -/

/-- The state after reset with n answers v. -/
def answeringAll (n : Nat) (v : Byte) : State := answering State.reset (List.replicate n v)

/-- Operands at the greatest values of their fields. -/
theorem wit_DecodesEncodedCommand :
    (Instr.get 15 13).wellFormed = true ∧ (Instr.ldc 0xFFFFFF).wellFormed = true ∧
    (Instr.interpHue 255).wellFormed = true := by decide

theorem wit_AcceptedWordIsEncoding :
    decode 0x800000DF = .ok (.set 15 13) ∧ decode 0x5C000000 = .ok .updateSweep := by decide

/-- Each clause at a boundary word: the first and last illegal opcode, the lowest and highest reserved bit of each format,
the two bad columns, and accepted words beside them. -/
theorem wit_DecodeRaisesFirstFault :
    [(0xB0000000, FaultCode.illegalOpcode), (0xFFFFFFFF, .illegalOpcode), (0x00000001, .reservedBits),
     (0x08000000, .reservedBits), (0x70000001, .reservedBits), (0x78000000, .reservedBits), (0x10000001, .reservedBits),
     (0x5E000000, .reservedBits), (0x61000000, .reservedBits), (0x68000000, .reservedBits), (0x80000100, .reservedBits),
     (0x98000000, .reservedBits), (0xA2000000, .reservedBits), (0xA0000100, .reservedBits), (0xA0800000, .reservedBits),
     (0x800000E0, .coordRange), (0x900000FF, .coordRange), (0x800000DF, .none), (0x5C000000, .none), (0xA10000FF, .none),
     (0x60FFFFFF, .none)].all
      (fun p : Word × FaultCode =>
        decide ((offered p.1).host = [.offer p.1] ∧ (offered p.1).inReset = false ∧ (offered p.1).cmdReady = true) &&
        match decode p.1 with | .error e => codeOf e == p.2 | .ok _ => p.2 == .none) = true := by decide +kernel

theorem wit_StepExecutesDecodedCommand :
    (offered 0x900000DF).host = [.offer 0x900000DF] ∧ (offered 0x900000DF).inReset = false ∧
    (offered 0x900000DF).cmdReady = true ∧ decode 0x900000DF = .ok (.get 15 13) := by decide +kernel

theorem wit_OfferIgnoredWhileNotReady :
    ({ faulted with host := [.offer 0] } : State).cmdReady = false ∧ faulted.inReset = false := by decide +kernel

theorem wit_FaultHoldsUntilReset :
    let s : State := { faulted with host := [.offer 0x60102030, .idle] }
    s.fault = true ∧ s.wait = .none ∧ s.inReset = false ∧ ∀ a ∈ s.host, a ≠ .resetLow := by decide +kernel

theorem wit_ResetLowHoldsReset :
    ({ stalledDraw with host := [.resetLow, .idle] } : State).host = .resetLow :: [.idle] := by rfl

theorem wit_ResetSequenceConstructsEffects :
    let s := answering held (List.replicate 224 7)
    s.inReset = true ∧ s.hostAct ≠ .resetLow ∧ ∀ j < 224, s.answered j 0 8 = true := by decide +kernel

/-- At the first and at the last cell. -/
theorem wit_ResetSequenceFaultsOnBadDraw :
    (let s := answering held [8]
     s.inReset = true ∧ s.hostAct ≠ .resetLow ∧ s.replyAt (0 : Cell).val = .ack 8) ∧
    (let s := answering held (List.replicate 223 0 ++ [255])
     s.inReset = true ∧ s.hostAct ≠ .resetLow ∧ (∀ j < 223, s.answered j 0 8 = true) ∧
       s.replyAt (223 : Cell).val = .ack 255) := by decide +kernel

/-- An unwritten cell in the last column, a buffer not all valid, an UPDATE from a state with another code. -/
theorem wit_UndefReadIsPreciseAndNeverInUpdate :
    Memory.valid State.reset.fb (15 + 16 * 13) = false ∧ State.reset.fbAllValid = false ∧
    State.reset.faultCode ≠ .undefRead ∧ ∃ t : State, exec .updateSweep State.reset = .next t :=
  ⟨by decide +kernel, by decide +kernel, by decide +kernel, _, rfl⟩

/-- The least and greatest answer in range of a seed draw, and the first ones out of it. -/
theorem wit_DrawChecksItsAnswer :
    [0x1F, 0x20, 0x8F, 0x90].map (fun v : Byte => decide ((answering State.reset [v]).replyAt 0 = .ack v)) =
      [true, true, true, true] ∧
    [0x1F, 0x20, 0x8F, 0x90].map (inRange 0x20 0x90) = [false, true, true, false] := by decide +kernel

/-- Silence in the first and in the last draw of each command, with a sink that takes the frame, and in the reset sequence. -/
theorem wit_SilentSourceLeavesBlockBusy :
    (∀ l ∈ [([], 0), (List.replicate 13 0x20, 13)],
      let s : State := { State.reset with rngIn := l.1.map .ack ++ [.never] }
      (∀ j < l.2, s.answered j 0x20 0x90 = true) ∧ s.replyAt l.2 = .never ∧ s.nextSink = .takesFrame) ∧
    (∀ l ∈ [([], 0), (List.replicate 47 223, 47)],
      let s : State := { State.reset with rngIn := l.1.map .ack ++ [.never] }
      (∀ j < l.2, s.answered j 0 224 = true) ∧ s.replyAt l.2 = .never ∧ s.nextSink = .takesFrame) ∧
    (∀ l ∈ [([], 0), (List.replicate 223 7, 223)],
      let s : State := { held with rngIn := l.1.map .ack ++ [.never] }
      s.inReset = true ∧ s.hostAct ≠ .resetLow ∧ (∀ j < l.2, s.answered j 0 8 = true) ∧ s.replyAt l.2 = .never) ∧
    ∀ l ∈ [([], 0), ([0], 1), ([0, 223], 2)],
      let s : State := { State.reset with rngIn := l.1.map .ack ++ [.never] }
      (0 < l.2 → s.answered 0 0 4 = true ∧ s.answerAt 0 = 0) ∧ (1 < l.2 → s.answered 1 0 224 = true) ∧
        s.replyAt l.2 = .never ∧ s.nextSink = .takesFrame := by decide +kernel

/-- Stalled on a draw, and stalled on a beat. -/
theorem wit_StallEndsOnlyByReset :
    (stalledDraw.busy = true ∧ stalledDraw.wait ≠ .none ∧ stalledDraw.inReset = false ∧
      (∀ a ∈ stalledDraw.host, a ≠ .resetLow) ∧ stalledDraw.rngReq = true) ∧
    (stalledBeat.busy = true ∧ stalledBeat.wait ≠ .none ∧ stalledBeat.inReset = false ∧
      (∀ a ∈ stalledBeat.host, a ≠ .resetLow) ∧ stalledBeat.rngReq = false) := by decide +kernel

/-- The last legal column and the first illegal one. -/
theorem wit_SetWritesOneCell : (13 : BitVec 4).toNat < 14 ∧ 14 ≤ (14 : BitVec 4).toNat := by decide

theorem wit_GetLoadsOneCell :
    (13 : BitVec 4).toNat < 14 ∧
    Memory.read ({ State.reset with fb := [(223, 5)] } : State).fb ((15 : BitVec 4).toNat + 16 * (13 : BitVec 4).toNat) =
      some 5 := by decide +kernel

theorem wit_SetThenGetReturnsColour :
    (13 : BitVec 4).toNat < 14 ∧ (0 : BitVec 4).toNat < 14 ∧ ((15, 13) : BitVec 4 × BitVec 4) ≠ (0, 0) ∧
    Memory.read ({ State.reset with fb := [(0, 5)] } : State).fb ((0 : BitVec 4).toNat + 16 * (0 : BitVec 4).toNat) =
      some 5 := by decide +kernel

theorem wit_PresentDeliversFrame :
    (filled 0x102030).fbAllValid = true ∧ (filled 0x102030).nextSink = .takesFrame :=
  ⟨fbAllValid_renderWith _ _, rfl⟩

/-- A sink that stops at the first beat, and one that stops at the last, for PRESENT and for UPDATE. -/
theorem wit_StalledSinkHoldsBeat :
    (∀ k ∈ [(0 : Cell), 223],
      let s : State := { filled 0x102030 with sinkIn := [.stopsAt k] }
      s.fbAllValid = true ∧ s.nextSink = .stopsAt k) ∧
    (∀ k ∈ [(0 : Cell), 223], ({ State.reset with sinkIn := [.stopsAt k] } : State).nextSink = .stopsAt k) ∧
    (.updateFire, 30, State.reset.fireShown) ∈ State.reset.updateForms :=
  ⟨fun _ _ => ⟨fbAllValid_renderWith (fun _ _ => 0x102030) State.reset, rfl⟩, fun _ _ => rfl, List.mem_cons_self⟩

theorem wit_FillOrderHasNoEffect : Memory.wf State.reset.fb = true ∧ linear.reverse.Perm linear :=
  ⟨rfl, List.reverse_perm _⟩

theorem wit_RepeatedCommandChangesNothing :
    Memory.wf State.reset.fb = true ∧ ∃ t : State, exec (.ldc 5) State.reset = .next t ∧ t.fault = false :=
  ⟨rfl, _, rfl, rfl⟩

theorem wit_CommandsWriteOnlyTheirState : ∃ t : State, exec .advanceStar (answeringAll 1 3) = .next t := ⟨_, rfl⟩

theorem wit_OnlyFillAndSetReadCreg :
    Instr.nop ≠ .fill ∧ (∀ r c, Instr.nop ≠ .set r c) ∧ ∃ t : State, exec .nop State.reset = .next t :=
  ⟨by decide, fun _ _ => by simp, _, rfl⟩

/-- The indices beside the stops, the last one in the wrap region. -/
theorem wit_InterpBlendsBracketingStops : (1 : Byte).toNat % 16 ≠ 0 ∧ (255 : Byte).toNat % 16 ≠ 0 := by decide

theorem wit_BlendStaysBetweenStops : (1 : BitVec 4) ≠ 0 ∧ (15 : BitVec 4) ≠ 0 := by decide

theorem wit_RiseClosedForm : (1 : Nat) ≠ 0 := by decide

/-- At the least and the greatest seed. -/
theorem wit_AdvanceFireResult :
    (∀ j < 14, (answeringAll 14 0x20).answered j 0x20 0x90 = true) ∧
    (∀ j < 14, (answeringAll 14 0x8F).answered j 0x20 0x90 = true) := by decide +kernel

/-- Too small in the first column, too large in the last. -/
theorem wit_AdvanceFireStopsAtBadSeed :
    (answering State.reset [0x1F]).replyAt (0 : Col).val = .ack 0x1F ∧
    (let s := answering State.reset (List.replicate 13 0x20 ++ [0x90])
     (∀ j < (13 : Col).val, s.answered j 0x20 0x90 = true) ∧ s.replyAt (13 : Col).val = .ack 0x90 ∧
       s.nextSink = .takesFrame) := by decide +kernel

theorem wit_FireHeatClosedForm :
    (2 : Nat) ≠ 0 ∧ (∀ k : Cell, entry (answeringAll 28 0x20).heat k = 0xF0) ∧
    ∀ j < 14 * 2, (answeringAll 28 0x20).answered j 0x20 0x90 = true :=
  ⟨by decide, fun k => entry_fillBank _ k, by decide +kernel⟩

/-- Good answers throughout, a bad one for the first cell, and one for the last. -/
theorem wit_InitRainDrawsHeads :
    (∀ j < 224, (answeringAll 224 7).answered j 0 8 = true) ∧
    (answering State.reset [8]).replyAt (0 : Cell).val = .ack 8 ∧
    (let s := answering State.reset (List.replicate 223 0 ++ [255])
     (∀ j < (223 : Cell).val, s.answered j 0 8 = true) ∧ s.replyAt (223 : Cell).val = .ack 255) := by decide +kernel

theorem wit_AdvanceRainResult : ∀ j < 48, (answeringAll 48 223).answered j 0 224 = true := by decide +kernel

/-- In the first draw, and in the last one. -/
theorem wit_AdvanceRainStopsAtBadDraw :
    (answering State.reset [224]).replyAt 0 = .ack 224 ∧
    (let s := answering State.reset (List.replicate 47 0 ++ [255])
     (∀ j < 47, s.answered j 0 224 = true) ∧ s.replyAt 47 = .ack 255 ∧ s.nextSink = .takesFrame) := by decide +kernel

theorem wit_AdvanceRainKeepsHeadCount : ∃ t : State, exec .advanceRain (answeringAll 48 0) = .next t := ⟨_, rfl⟩

theorem wit_NoHeadsFadeToBlack :
    (∀ k : Cell, entry (answeringAll 288 0).head k = false) ∧ 6 ≤ (6 : Nat) ∧
    ∀ j < 48 * 6, (answeringAll 288 0).answered j 0 224 = true :=
  ⟨fun k => entry_fillBank _ k, le_refl _, by decide +kernel⟩

/-- Without a spawn, and with one in the last cell at either end of the range of values. -/
theorem wit_AdvanceStarResult :
    (answering State.reset [3]).starAnswered = true ∧ (answering State.reset [0, 223, 255]).starAnswered = true ∧
    (answering State.reset [0, 0, 0xA0]).starAnswered = true := by decide +kernel

/-- A spawn; and an answer just out of range in each of the three draws, at either end where both can be left. -/
theorem wit_AdvanceStarBrightensAtMostOneCell :
    (∃ t : State, exec .advanceStar (answering State.reset [0, 37, 0xC0]) = .next t) ∧
    (answering State.reset [4]).replyAt 0 = .ack 4 ∧ (answering State.reset [4]).nextSink = .takesFrame ∧
    (let s := answering State.reset [0, 224]
     s.answered 0 0 4 = true ∧ s.answerAt 0 = 0 ∧ s.replyAt 1 = .ack 224) ∧
    (let s := answering State.reset [0, 9, 0x9F]
     s.answered 0 0 4 = true ∧ s.answerAt 0 = 0 ∧ s.answered 1 0 224 = true ∧ s.replyAt 2 = .ack 0x9F) :=
  ⟨⟨_, rfl⟩, by decide +kernel, rfl, by decide +kernel, by decide +kernel⟩

theorem wit_StarFadesTwoEachAdvance :
    (∀ j < 2, (answeringAll 2 1).answered j 1 4 = true) ∧ (∀ j < 2, (answeringAll 2 3).answered j 1 4 = true) := by
  decide +kernel

theorem wit_SweepHasPeriod256 :
    State.reset.sweep = 0 ∧ ∃ t : State, execAll (List.replicate 1 .advanceSweep) State.reset = .next t := ⟨rfl, _, rfl⟩

theorem wit_UpdateFireResult :
    (answeringAll 14 0x8F).nextSink = .takesFrame ∧ ∀ j < 14, (answeringAll 14 0x8F).answered j 0x20 0x90 = true := by
  decide +kernel

theorem wit_UpdateRainResult :
    (answeringAll 48 0).nextSink = .takesFrame ∧ ∀ j < 48, (answeringAll 48 0).answered j 0 224 = true := by
  decide +kernel

theorem wit_UpdateStarResult :
    (answering State.reset [0, 37, 0xC0]).nextSink = .takesFrame ∧
    (answering State.reset [0, 37, 0xC0]).starAnswered = true := by decide +kernel

theorem wit_UpdateSweepResult : ({ State.reset with sinkIn := [.takesFrame] } : State).nextSink = .takesFrame := by rfl

/-- The three split commands of the sweep from reset, none of which faults or stalls. -/
theorem wit_UpdateEqualsSplitCommands :
    State.reset.paceCnt = none ∧ State.reset.nextSink = .takesFrame ∧
    ∃ t : State, execAll [.renderSweep, .presentSweep, .advanceSweep] State.reset = .next t ∧ t.fault = false ∧
      t.busy = false := by
  refine ⟨rfl, rfl, ?_⟩
  simp only [execAll, exec, execRenderSweep, execPresentSweep, execAdvanceSweep, command_eq, Flow.final_go]
  rw [present_takes (s := complete (renderSweep hardware State.reset)) (fbAllValid_renderWith _ _) rfl]
  exact ⟨_, rfl, rfl, rfl⟩

theorem wit_SweepFramesCycleThroughPalette : State.reset.sweep = 0 ∧ State.reset.sinkIn = [] := ⟨rfl, rfl⟩

/-- A block stalled on a frame transfer meets the invariant and takes a step. -/
theorem wit_StepKeepsInvariant :
    ({ stalledBeat with host := [.offer 0] } : State).Inv ∧
    ∃ t : State, step { stalledBeat with host := [.offer 0] } = .next t := by
  refine ⟨⟨wf_fillFrom _ rfl, by decide, fun _ => rfl, by decide, by decide, fun h => ?_, fun h => ?_, rfl, fun k => ?_,
    fun f hf => ?_, ?_⟩, _, rfl⟩
  · exact absurd h (by decide)
  · exact absurd h (by decide)
  · exact (congrArg BitVec.toNat (entry_fillBank (0xF0 : Byte) k)).le
  · exact absurd hf (List.not_mem_nil)
  · exact ⟨by decide, fbAllValid_renderWith (fun _ _ => 0xFFFFFF) State.reset⟩

theorem wit_HistoriesOnlyGrow : ∃ t : State, step (offered 0x5C000000) = .next t := ⟨_, rfl⟩

theorem wit_AssemblerEmitsLegalWords :
    ∃ ws, assembleLine "INTERP.HUE #0x88".toList = some ws ∧ (0xA1000088 : Word) ∈ ws :=
  ⟨[0xA1000088], by decide +kernel, by decide⟩

end Sys2Proof.Tests
end

section
/-! The answered draw, by the two ends of its range check (10_state R23). -/

namespace Sys2Proof.Machine

/-- The range check of R23, read as the two bounds it stands for. -/
theorem inRange_eq_true_iff {lo : Byte} {hi : BitVec 9} {v : Byte} :
    inRange lo hi v = true ↔ lo.toNat ≤ v.toNat ∧ v.toNat < hi.toNat := by
  simp [inRange]

/-- A draw answered in range goes on with the answer, whatever its bounds (R13, R39). -/
theorem withDraw_inRange {lo : Byte} {hi : BitVec 9} {s : State} {v : Byte} (rest : Byte → State → Flow)
    (h : s.replyAt 0 = .ack v) (hv : inRange lo hi v = true) :
    withDraw lo hi s rest = rest v (s.popRng.recordDraw ⟨lo, hi, v⟩) := by
  have hans : s.answerAt 0 = v := by simp [State.answerAt, h]
  have hok : s.answered 0 lo hi = true := by simpa [State.answered, h] using hv
  rw [withDraw_answered rest hok, hans]

/-- Settles O14: the two outcomes of an answered draw are the two values of its range check; the state it goes on from
is the one with the reply taken and the draw recorded. -/
theorem drawChecksItsAnswer : Obligations.DrawChecksItsAnswer := by
  unfold Obligations.DrawChecksItsAnswer
  intro lo hi s rest v h
  dsimp only
  split
  · next hv => exact withDraw_inRange rest h (inRange_eq_true_iff.mpr hv)
  · next hv =>
    have hout : inRange lo hi v = false := Bool.eq_false_iff.mpr (mt inRange_eq_true_iff.mp hv)
    exact withDraw_outOfRange rest h hout

end Sys2Proof.Machine
end

section
/-! What one step can do: the body of each command, and a step by the host's action (10_state R20, R21, R36). -/

namespace Sys2Proof.Machine

/-- What a command does between its acceptance and its end. -/
def bodyOf : Instr → State → Flow
  | .nop => .go
  | .initFire => fun s => .go (initFire hardware s)
  | .initRain => initRain hardware
  | .initStar => fun s => .go (initStar s)
  | .initSweep => fun s => .go (initSweep hardware s)
  | .renderFire => fun s => .go (renderFire hardware s)
  | .renderRain => fun s => .go (renderRain hardware s)
  | .renderStar => fun s => .go (renderStar s)
  | .renderSweep => fun s => .go (renderSweep hardware s)
  | .presentFire => present hardware.fpsFire
  | .presentRain => present hardware.fpsRain
  | .presentStar => present hardware.fpsStar
  | .presentSweep => present hardware.fpsSweep
  | .advanceFire => advanceFire hardware
  | .advanceRain => advanceRain hardware
  | .advanceStar => advanceStar hardware
  | .advanceSweep => fun s => .go (advanceSweep hardware s)
  | .updateFire => updateFire hardware
  | .updateRain => updateRain hardware
  | .updateStar => updateStar hardware
  | .updateSweep => updateSweep hardware
  | .ldc v => fun s => .go (s.setCreg v)
  | .fill => fun s => .go (renderWith (fun _ _ => s.creg) s)
  | .set row col => atCell row col setCell
  | .get row col => atCell row col getCell
  | .interpFire i => fun s => .go (interpFire hardware i s)
  | .interpHue i => fun s => .go (interpHue hardware i s)

/-- Every command answers the next state its body leaves (20_memory R61). -/
theorem exec_eq_bodyOf (i : Instr) (s : State) : exec i s = .next (bodyOf i s).final := by
  cases i <;> rfl

theorem hostAct_cons {s : State} {a : HostAct} {rest : List HostAct} (h : s.host = a :: rest) : s.hostAct = a := by
  simp [State.hostAct, h]

theorem popHost_cons {s : State} {a : HostAct} {rest : List HostAct} (h : s.host = a :: rest) :
    s.popHost = { s with host := rest } := by
  simp [State.popHost, h]

/-- An edge at which the block takes nothing only takes the host's action (R21, R268). -/
theorem eq_popHost_of_holdStill {s t : State} (h : holdStill s = .next t) : t = s.popHost := by
  unfold holdStill at h
  split at h
  · cases h
  · cases h
  · next hhost _ =>
    cases h
    cases s
    simp_all [State.popHost]
  · cases h
    rfl

theorem holdStill_cons {s : State} {a : HostAct} {rest : List HostAct} (h : s.host = a :: rest) :
    holdStill s = .next s.popHost := by
  unfold holdStill
  simp [h]

/-- An edge with `rst_n` = 0 (R20). -/
theorem step_of_resetLow {s : State} (h : s.hostAct = .resetLow) : step s = .next (holdReset hardware s.popHost) := by
  simp [step, clockStep, h]

/-- The first edge with `rst_n` = 1 (70_reset R280). -/
theorem step_of_inReset {s : State} (h : s.hostAct ≠ .resetLow) (hr : s.inReset = true) :
    step s = .next (resetSequence hardware s.popHost) := by
  unfold step clockStep
  cases ha : s.hostAct with
  | resetLow => exact absurd ha h
  | offer w => simp [hr]
  | idle => simp [hr]

/-- A ready block takes the word it is offered (R21). -/
theorem step_of_offer_ready {s : State} {w : Word} (h : s.hostAct = .offer w) (hr : s.inReset = false)
    (hready : s.cmdReady = true) : step s = runWord w s.popHost := by
  simp [step, clockStep, h, hr, hready]

/-- A block that is not ready does not take the word it is offered (R21). -/
theorem step_of_offer_notReady {s : State} {w : Word} (h : s.hostAct = .offer w) (hr : s.inReset = false)
    (hready : s.cmdReady = false) : step s = holdStill s := by
  simp [step, clockStep, h, hr, hready]

theorem step_of_idle {s : State} (h : s.hostAct = .idle) (hr : s.inReset = false) : step s = holdStill s := by
  simp [step, clockStep, h, hr]

/-- A word that decodes runs the command it encodes (R77). -/
theorem runWord_of_decode {w : Word} {i : Instr} (s : State) (h : decode w = .ok i) :
    runWord w s = exec i (accept w s) := by
  simp [runWord, h]

/-- Everything a step with a next state can be: reset held, the reset sequence, a command, a decode fault, or an edge at
which the block takes nothing. -/
theorem step_cases {s t : State} (h : step s = .next t) :
    t = holdReset hardware s.popHost ∨
    (s.inReset = true ∧ t = resetSequence hardware s.popHost) ∨
    (s.inReset = false ∧ s.cmdReady = true ∧ ∃ w i, decode w = .ok i ∧
      t = (bodyOf i (accept w s.popHost)).final) ∨
    (s.inReset = false ∧ s.cmdReady = true ∧ ∃ w e, decode w = .error e ∧
      t = faultEntry (codeOf e) (accept w s.popHost)) ∨
    t = s.popHost := by
  by_cases hlow : s.hostAct = .resetLow
  · rw [step_of_resetLow hlow] at h
    cases h
    exact .inl rfl
  cases hr : s.inReset with
  | true =>
    rw [step_of_inReset hlow hr] at h
    cases h
    exact .inr (.inl ⟨rfl, rfl⟩)
  | false =>
    cases ha : s.hostAct with
    | resetLow => exact absurd ha hlow
    | idle =>
      rw [step_of_idle ha hr] at h
      exact .inr (.inr (.inr (.inr (eq_popHost_of_holdStill h))))
    | offer w =>
      cases hready : s.cmdReady with
      | false =>
        rw [step_of_offer_notReady ha hr hready] at h
        exact .inr (.inr (.inr (.inr (eq_popHost_of_holdStill h))))
      | true =>
        rw [step_of_offer_ready ha hr hready, runWord] at h
        cases hd : decode w with
        | ok i =>
          simp only [hd, exec_eq_bodyOf] at h
          cases h
          exact .inr (.inr (.inl ⟨rfl, rfl, w, i, hd, rfl⟩))
        | error e =>
          simp only [hd] at h
          cases h
          exact .inr (.inr (.inr (.inl ⟨rfl, rfl, w, e, hd, rfl⟩)))

/-- Settles O5: the edge of a ready block runs the offered word, and the decoder gives its command. -/
theorem stepExecutesDecodedCommand : Obligations.StepExecutesDecodedCommand := by
  unfold Obligations.StepExecutesDecodedCommand
  intro s w rest i hhost hr hready hd
  rw [step_of_offer_ready (hostAct_cons hhost) hr hready, runWord_of_decode _ hd, popHost_cons hhost]
  rfl

/-- Settles O6: an edge of a block that is not ready only takes the host's action. -/
theorem offerIgnoredWhileNotReady : Obligations.OfferIgnoredWhileNotReady := by
  unfold Obligations.OfferIgnoredWhileNotReady
  intro s w rest hhost hr hready
  rw [step_of_offer_notReady (hostAct_cons hhost) hr hready, holdStill_cons hhost, popHost_cons hhost]

end Sys2Proof.Machine
end

section
/-! STATUS and the frame as the ports carry them, and the values of reset (10_state R22, R25, R40, R41). -/

namespace Sys2Proof.Machine

theorem fbAllValid_iff_valid (s : State) : s.fbAllValid = true ↔ ∀ k < 224, Memory.valid s.fb k = true := by
  simp only [fbAllValid_iff, Memory.valid_iff]

/-- A frame buffer with no cell written is not all valid (R34). -/
theorem fbAllValid_of_fb_nil {s : State} (h : s.fb = []) : s.fbAllValid = false := by
  rw [Bool.eq_false_iff, Ne, fbAllValid_iff_valid]
  intro hall
  have h0 := hall 0 (by decide)
  rw [h] at h0
  exact absurd h0 (by decide)

/-- STATUS of a block that has not faulted and whose frame buffer is empty: BUSY alone (R25). -/
theorem status_of_fb_nil {s : State} (hfb : s.fb = []) (hf : s.fault = false) (hc : s.faultCode = .none) :
    s.status = if s.busy then 1 else 0 := by
  rw [State.status, fbAllValid_of_fb_nil hfb, hf, hc]
  cases s.busy <;> rfl

/-- Each bit of STATUS, by the fields from bit 0 up (R25). -/
theorem status_getLsbD (s : State) (j : Nat) :
    s.status.getLsbD j =
      if j = 0 then s.busy
      else if j = 1 then s.fault
      else if j < 6 then s.faultCode.bits.getLsbD (j - 2)
      else if j = 6 then s.fbAllValid
      else false := by
  have h := BitVec.getLsbD_append (x := 0#9 ++ BitVec.ofBool s.fbAllValid ++ s.faultCode.bits ++ BitVec.ofBool s.fault)
    (y := BitVec.ofBool s.busy) (i := j)
  refine h.trans ?_
  simp only [BitVec.getLsbD_append, BitVec.getLsbD_ofBool, BitVec.getLsbD_zero]
  grind

/-- Settles O26: each clause reads the bits of one field. -/
theorem statusLayout : Obligations.StatusLayout := by
  unfold Obligations.StatusLayout
  intro s
  refine ⟨status_getLsbD s 0, status_getLsbD s 1, ?_, ?_, ?_⟩
  · apply BitVec.eq_of_getLsbD_eq
    intro j hj
    have h1 : 2 + j ≠ 1 := by omega
    have h6 : 2 + j < 6 := by omega
    simp [status_getLsbD, hj, h1, h6]
  · rw [← fbAllValid_iff_valid]
    exact (congrArg (· = true) (status_getLsbD s 6)).to_iff
  · apply BitVec.eq_of_getLsbD_eq
    intro j hj
    have h1 : 7 + j ≠ 1 := by omega
    have h6 : 7 + j ≠ 6 := by omega
    have h6' : ¬ 7 + j < 6 := by omega
    simp [status_getLsbD, h1, h6, h6']

/-- The beats of a frame number 224 (R22). -/
theorem beats_length (f : Frame) : f.beats.length = 224 := by
  simp [Frame.beats, linear]

/-- Beat k of a frame (R22, R55). -/
theorem beats_getElem? (f : Frame) (k : Cell) : f.beats[k.val]? = some (beatOf f.fps f.cells k) := by
  simp [Frame.beats, linear]

/-- Settles O24: the beats are the cells in linear-index order. -/
theorem frameIsTwoHundredTwentyFourBeats : Obligations.FrameIsTwoHundredTwentyFourBeats := by
  unfold Obligations.FrameIsTwoHundredTwentyFourBeats
  exact fun f => ⟨beats_length f, beats_getElem? f⟩

/-- Settles O8: the state's fields are the table's values; every reset draw was 1 and no head is set. -/
theorem resetStateHoldsTableValues : Obligations.ResetStateHoldsTableValues := by
  unfold Obligations.ResetStateHoldsTableValues
  have hall : State.reset.fbAllValid = false := fbAllValid_of_fb_nil rfl
  have hstatus : State.reset.status = 0 := status_of_fb_nil rfl rfl rfl
  have hhead (k : Cell) : entry State.reset.head k = true ↔ (State.reset.draws[k.val]?).map Draw.val = some 0 := by
    have hdraw : State.reset.draws[k.val]? = some ⟨0, hardware.rainHeadOdds, 1⟩ :=
      List.getElem?_replicate_of_lt k.isLt
    have hoff : entry State.reset.head k = false := entry_fillBank _ k
    rw [hdraw, hoff]
    decide
  exact ⟨rfl, rfl, rfl, rfl, hall, hstatus, rfl, entry_fillBank _, hhead, entry_fillBank _, entry_fillBank _, rfl,
    fun _ _ => rfl, rfl, rfl, rfl, rfl⟩

/-- Settles O9: the state `holdReset` leaves, read field by field. -/
theorem resetLowHoldsReset : Obligations.ResetLowHoldsReset := by
  unfold Obligations.ResetLowHoldsReset
  intro s rest hhost
  have hstep := step_of_resetLow (hostAct_cons hhost)
  rw [popHost_cons hhost] at hstep
  exact ⟨_, hstep, rfl, rfl, rfl, rfl, fbAllValid_of_fb_nil rfl, status_of_fb_nil rfl rfl rfl, rfl, entry_fillBank _,
    entry_fillBank _, entry_fillBank _, rfl, fun _ _ => rfl, rfl, rfl, rfl, rfl, rfl, rfl, rfl, rfl, rfl, rfl⟩

end Sys2Proof.Machine
end

section
/-! The units of state a command may write, and once for all commands: what is kept by each write a command may make is
kept by the command (10_state R24 to R33, 42_effect_control R150, R152). -/

namespace Sys2Proof.Machine

/-- The units of state that the rules let a command write. -/
inductive StateUnit where
  | creg
  | heat
  /-- HEAD and RINT. -/
  | rain
  | sint
  | sweep
  | fb
  /-- The presented frames and the sink's replies. -/
  | sink
  /-- The draws made and the random source's replies. -/
  | rng
  /-- STATUS.FAULT, STATUS.FAULT_CODE and FAULT_CMD. -/
  | fault
  | pace
  /-- The command port and the reset line, which no command writes. -/
  | port

/-- Two states hold the same in one unit. -/
def StateUnit.Same (u : StateUnit) (s t : State) : Prop :=
  match u with
  | .creg => t.creg = s.creg
  | .heat => t.heat = s.heat
  | .rain => t.head = s.head ∧ t.rint = s.rint
  | .sint => t.sint = s.sint
  | .sweep => t.sweep = s.sweep
  | .fb => t.fb = s.fb
  | .sink => t.frames = s.frames ∧ t.sinkIn = s.sinkIn
  | .rng => t.draws = s.draws ∧ t.rngIn = s.rngIn
  | .fault => t.fault = s.fault ∧ t.faultCode = s.faultCode ∧ t.faultCmd = s.faultCmd
  | .pace => t.paceCnt = s.paceCnt
  | .port => t.host = s.host ∧ t.inReset = s.inReset

theorem StateUnit.Same.refl (u : StateUnit) (s : State) : u.Same s s := by
  cases u <;> simp [StateUnit.Same]

/-- The units a command may write, in some outcome. -/
def writes : Instr → List StateUnit
  | .nop => []
  | .initFire => [.heat]
  | .initRain => [.rain, .rng, .fault]
  | .initStar => [.sint]
  | .initSweep => [.sweep]
  | .renderFire | .renderRain | .renderStar | .renderSweep | .fill => [.fb]
  | .presentFire | .presentRain | .presentStar | .presentSweep => [.sink, .fault]
  | .advanceFire => [.heat, .rng, .fault]
  | .advanceRain => [.rain, .rng, .fault]
  | .advanceStar => [.sint, .rng, .fault]
  | .advanceSweep => [.sweep]
  | .updateFire => [.fb, .sink, .pace, .heat, .rng, .fault]
  | .updateRain => [.fb, .sink, .pace, .rain, .rng, .fault]
  | .updateStar => [.fb, .sink, .pace, .sint, .rng, .fault]
  | .updateSweep => [.fb, .sink, .pace, .sweep, .fault]
  | .ldc _ | .interpFire _ | .interpHue _ => [.creg]
  | .set _ _ => [.fb, .fault]
  | .get _ _ => [.creg, .fault]

/-- No heat index exceeds 0xF0 (43_fire R176). -/
def HeatBounded (b : Bank Byte) : Prop := ∀ k : Cell, (entry b k).toNat ≤ 0xF0

/-- The writes a command makes to the units of W keep `P` while it runs, and the ways it ends early reach `Q`. -/
structure Keeps (W : List StateUnit) (P Q : State → Prop) : Prop where
  creg : .creg ∈ W → ∀ s v, P s → P (s.setCreg v)
  heat : .heat ∈ W → ∀ s b, P s → (HeatBounded s.heat → HeatBounded b) → P (s.setHeat b)
  head : .rain ∈ W → ∀ s b, P s → P (s.setHead b)
  rint : .rain ∈ W → ∀ s b, P s → P (s.setRint b)
  sint : .sint ∈ W → ∀ s b, P s → P (s.setSint b)
  sweep : .sweep ∈ W → ∀ s v, P s → P (s.setSweep v)
  fb : .fb ∈ W → ∀ s m, P s → (Memory.wf s.fb = true → Memory.wf m = true) → P (s.setFb m)
  pace : .pace ∈ W → ∀ p fps s, P s → P (pace p fps s)
  draw : .rng ∈ W → ∀ s d, P s → P (s.popRng.recordDraw d)
  fault : .fault ∈ W → ∀ s code, P s → code ≠ .none → Q (faultEntry code s)
  drawWaits : .rng ∈ W → ∀ s lo hi, P s → lo.toNat < hi.toNat → hi.toNat ≤ 256 →
    Q (stall (.draw lo hi) s.popRng)
  beatWaits : .sink ∈ W → ∀ s fps k, P s → fps ∈ legalRates → s.fbAllValid = true →
    Q (stall (.beat fps k) s.popSink)

/-- A frame that a command with the units of W delivers takes `P` to `P'`. -/
def Delivering (W : List StateUnit) (P P' : State → Prop) : Prop :=
  .sink ∈ W → ∀ s fps, P s → fps ∈ legalRates → P' (s.popSink.recordFrame ⟨fps, frameCells s.fb⟩)

theorem renderFire_eq (p : Config.Parameters) (s : State) : renderFire p s = renderWith (colourFire p s) s := rfl

theorem renderRain_eq (p : Config.Parameters) (s : State) : renderRain p s = renderWith (colourRain p s) s := rfl

theorem renderStar_eq (s : State) : renderStar s = renderWith (colourStar s) s := rfl

theorem renderSweep_eq (p : Config.Parameters) (s : State) : renderSweep p s = renderWith (colourSweep p s) s := rfl

theorem heatBounded_fillBank : HeatBounded (fillBank hardware.fireInit) := by
  intro k
  rw [entry_fillBank]
  decide

theorem HeatBounded.put {b : Bank Byte} (hb : HeatBounded b) (k : Cell) {v : Byte} (hv : v.toNat ≤ 0xF0) :
    HeatBounded (put b k v) := by
  intro j
  rw [entry_put]
  split
  · exact hv
  · exact hb j

/-- A risen index is at most 255 - FIRE_SUB (R174, R176). -/
theorem rise_le (x : Byte) : (rise hardware x).toNat ≤ 0xF0 := by
  have hx := (satAdd8 x hardware.fireAdd).isLt
  have hsub : hardware.fireSub.toNat = 15 := rfl
  simp only [rise, satSub8, hsub, BitVec.toNat_ofNat]
  omega

/-- The in-place sweep keeps the bound: every entry it writes is a risen one. -/
theorem HeatBounded.riseSweep {b : Bank Byte} (hb : HeatBounded b) : HeatBounded (riseSweep hardware b) :=
  List.foldlRecOn rowsDown _ hb fun _ hh _ _ =>
    List.foldlRecOn cols _ hh fun _ hh' _ _ => hh'.put _ (rise_le _)

section
variable {W : List StateUnit} {P Q : State → Prop} {s : State}

theorem Keeps.sat_withDraw (h : Keeps W P Q) (hrng : .rng ∈ W) (hfault : .fault ∈ W) {lo : Byte} {hi : BitVec 9}
    {rest : Byte → State → Flow} (hlo : lo.toNat < hi.toNat) (hhi : hi.toNat ≤ 256)
    (hrest : ∀ v t, inRange lo hi v = true → P t → (rest v t).Sat P Q) (hs : P s) :
    (withDraw lo hi s rest).Sat P Q :=
  Machine.sat_withDraw (h.drawWaits hrng _ _ _ hs hlo hhi)
    (fun _ => h.fault hfault _ _ (h.draw hrng _ _ hs) (by decide)) fun v hv => hrest v _ hv (h.draw hrng _ _ hs)

theorem Keeps.sat_advanceFire (h : Keeps W P Q) (hW : writes .advanceFire ⊆ W) (hs : P s) :
    (advanceFire hardware s).Sat P Q := by
  simp only [writes, List.cons_subset] at hW
  obtain ⟨hheat, hrng, hfault, -⟩ := hW
  refine Flow.sat_loop (fun c t ht => ?_) cols (h.heat hheat _ _ hs HeatBounded.riseSweep)
  refine h.sat_withDraw hrng hfault (by decide) (by decide) (fun v t hv ht => ?_) ht
  have hv' : v.toNat < 0x90 := (inRange_eq_true_iff.mp hv).2
  exact h.heat hheat _ _ ht fun hb => hb.put _ (by omega)

theorem Keeps.sat_initRain (h : Keeps W P Q) (hW : writes .initRain ⊆ W) (hs : P s) :
    (initRain hardware s).Sat P Q := by
  simp only [writes, List.cons_subset] at hW
  obtain ⟨hrain, hrng, hfault, -⟩ := hW
  refine Flow.sat_loop (fun k t ht => ?_) linear (h.rint hrain _ _ hs)
  exact h.sat_withDraw hrng hfault (by decide) (by decide) (fun _ _ _ ht => h.head hrain _ _ ht) ht

theorem Keeps.sat_advanceRain (h : Keeps W P Q) (hW : writes .advanceRain ⊆ W) (hs : P s) :
    (advanceRain hardware s).Sat P Q := by
  simp only [writes, List.cons_subset] at hW
  obtain ⟨hrain, hrng, hfault, -⟩ := hW
  have hattempt (t : State) (ht : P t) : (attempt t).Sat P Q := by
    refine h.sat_withDraw hrng hfault (by decide) (by decide) (fun a t _ ht => ?_) ht
    exact h.sat_withDraw hrng hfault (by decide) (by decide) (fun _ _ _ ht => h.head hrain _ _ ht) ht
  exact (Flow.sat_times hattempt _ hs).andThen fun _ ht =>
    h.rint hrain _ _ (h.head hrain _ _ (h.rint hrain _ _ ht))

theorem Keeps.sat_advanceStar (h : Keeps W P Q) (hW : writes .advanceStar ⊆ W) (hs : P s) :
    (advanceStar hardware s).Sat P Q := by
  simp only [writes, List.cons_subset] at hW
  obtain ⟨hsint, hrng, hfault, -⟩ := hW
  have hspawn (t : State) (ht : P t) : (spawnStar hardware t).Sat P Q := by
    refine h.sat_withDraw hrng hfault (by decide) (by decide) (fun k t _ ht => ?_) ht
    exact h.sat_withDraw hrng hfault (by decide) (by decide) (fun _ _ _ ht => h.sint hsint _ _ ht) ht
  refine h.sat_withDraw hrng hfault (by decide) (by decide) (fun v t _ ht => ?_) (h.sint hsint _ _ hs)
  split
  · exact hspawn t ht
  · exact ht

theorem Keeps.advanceSweep (h : Keeps W P Q) (hsweep : .sweep ∈ W) (hs : P s) : P (advanceSweep hardware s) :=
  h.sweep hsweep _ _ hs

theorem Keeps.renderWith (h : Keeps W P Q) (hfb : .fb ∈ W) (colour : Row → Col → Colour) (hs : P s) :
    P (renderWith colour s) :=
  h.fb hfb _ _ hs (wf_fillFrom colour)

theorem Keeps.sat_atCell (h : Keeps W P Q) (hfault : .fault ∈ W) {row col : BitVec 4}
    {access : Nat → State → Flow} (haccess : ∀ k < 224, (access k s).Sat P Q) (hs : P s) :
    (atCell row col access s).Sat P Q := by
  unfold atCell
  split
  · next hcol =>
    have hcol' : col.toNat < 14 := by simpa [legalCol] using hcol
    have hrow := row.isLt
    exact haccess _ (by unfold fieldIndex; omega)
  · exact h.fault hfault _ _ hs (by decide)

theorem Keeps.sat_getCell (h : Keeps W P Q) (hcreg : .creg ∈ W) (hfault : .fault ∈ W) (k : Nat) (hs : P s) :
    (getCell k s).Sat P Q := by
  unfold getCell
  split
  · exact h.creg hcreg _ _ hs
  · exact h.fault hfault _ _ hs (by decide)

variable {P' : State → Prop}

theorem Keeps.sat_present (h : Keeps W P Q) (hd : Delivering W P P') (hsink : .sink ∈ W) (hfault : .fault ∈ W)
    {fps : Fps} (hfps : fps ∈ legalRates) (hs : P s) : (present fps s).Sat P' Q :=
  Machine.sat_present (fun _ => h.fault hfault _ _ hs (by decide)) (fun hall k => h.beatWaits hsink _ _ k hs hfps hall)
    fun _ => hd hsink _ _ hs hfps

/-- An UPDATE keeps what its render, its frame, its pacing wait and its advance keep (42_effect_control R156). -/
theorem Keeps.sat_update (h : Keeps W P Q) (h' : Keeps W P' Q) (hd : Delivering W P P')
    (hW : [.fb, .sink, .pace, .fault] ⊆ W) {fps : Fps} (hfps : fps ∈ legalRates) {render : State → State}
    (colour : Row → Col → Colour) (hrender : render s = Machine.renderWith colour s) {advance : State → Flow}
    (hadvance : ∀ t, P' t → (advance t).Sat P' Q) (hs : P s) : (update hardware fps render advance s).Sat P' Q := by
  simp only [List.cons_subset] at hW
  obtain ⟨hfb, hsink, hpace, hfault, -⟩ := hW
  have hpresent : (present fps (render s)).Sat P' Q := by
    rw [hrender]
    exact h.sat_present hd hsink hfault hfps (h.renderWith hfb colour hs)
  exact hpresent.andThen fun _ ht => hadvance _ (h'.pace hpace _ _ _ ht)

end

/-- Every command keeps what its writes keep: `P` up to the frame it may deliver and `P'` from there on. -/
theorem Keeps.sat_bodyOf {i : Instr} {P P' Q : State → Prop} (h : Keeps (writes i) P Q) (h' : Keeps (writes i) P' Q)
    (hd : Delivering (writes i) P P') (hle : ∀ s, P s → P' s) {s : State} (hs : P s) : (bodyOf i s).Sat P' Q := by
  cases i with
  | nop => exact hle _ hs
  | initFire => exact hle _ (h.heat (by simp [writes]) _ _ hs fun _ => heatBounded_fillBank)
  | initRain => exact h'.sat_initRain (List.Subset.refl _) (hle _ hs)
  | initStar => exact hle _ (h.sint (by simp [writes]) _ _ hs)
  | initSweep | advanceSweep => exact hle _ (h.sweep (by simp [writes]) _ _ hs)
  | renderFire | renderRain | renderStar | renderSweep | fill => exact hle _ (h.renderWith (by simp [writes]) _ hs)
  | presentFire | presentRain | presentStar | presentSweep =>
    exact h.sat_present hd (by simp [writes]) (by simp [writes]) (by decide) hs
  | advanceFire => exact h'.sat_advanceFire (List.Subset.refl _) (hle _ hs)
  | advanceRain => exact h'.sat_advanceRain (List.Subset.refl _) (hle _ hs)
  | advanceStar => exact h'.sat_advanceStar (List.Subset.refl _) (hle _ hs)
  | updateFire =>
    exact h.sat_update h' hd (by simp [writes]) (by decide) _ (renderFire_eq hardware s)
      (fun _ => h'.sat_advanceFire (by simp [writes])) hs
  | updateRain =>
    exact h.sat_update h' hd (by simp [writes]) (by decide) _ (renderRain_eq hardware s)
      (fun _ => h'.sat_advanceRain (by simp [writes])) hs
  | updateStar =>
    exact h.sat_update h' hd (by simp [writes]) (by decide) _ (renderStar_eq s)
      (fun _ => h'.sat_advanceStar (by simp [writes])) hs
  | updateSweep =>
    exact h.sat_update h' hd (by simp [writes]) (by decide) _ (renderSweep_eq hardware s)
      (fun _ ht => Flow.sat_go.mpr (h'.advanceSweep (by simp [writes]) ht)) hs
  | ldc _ | interpFire _ | interpHue _ => exact hle _ (h.creg (by simp [writes]) _ _ hs)
  | set row col =>
    exact h'.sat_atCell (by simp [writes])
      (fun k hk => h'.fb (by simp [writes]) _ _ (hle _ hs) fun hm => Memory.wf_write _ hm hk) (hle _ hs)
  | get row col =>
    exact h'.sat_atCell (by simp [writes])
      (fun k _ => h'.sat_getCell (by simp [writes]) (by simp [writes]) k (hle _ hs)) (hle _ hs)

/-- The reset sequence keeps what its writes keep, from its first writes on (70_reset R280). -/
theorem Keeps.sat_sequenceBody {P Q : State → Prop} (h : Keeps [.heat, .rain, .sint, .sweep, .rng, .fault] P Q)
    {s : State} (hs : P (beginSequence s)) : (sequenceBody hardware s).Sat P Q :=
  (h.sat_initRain (by simp [writes]) (h.heat (by simp) _ _ hs fun _ => heatBounded_fillBank)).andThen
    fun _ ht => h.sweep (by simp) _ _ (h.sint (by simp) _ _ ht)

/-- A unit that W leaves out stays as it was. -/
theorem keeps_same {W : List StateUnit} {u : StateUnit} (hu : u ∉ W) (s : State) : Keeps W (u.Same s) (u.Same s) where
  creg hw _ _ ht := by cases u with | creg => exact absurd hw hu | _ => exact ht
  heat hw _ _ ht _ := by cases u with | heat => exact absurd hw hu | _ => exact ht
  head hw _ _ ht := by cases u with | rain => exact absurd hw hu | _ => exact ht
  rint hw _ _ ht := by cases u with | rain => exact absurd hw hu | _ => exact ht
  sint hw _ _ ht := by cases u with | sint => exact absurd hw hu | _ => exact ht
  sweep hw _ _ ht := by cases u with | sweep => exact absurd hw hu | _ => exact ht
  fb hw _ _ ht _ := by cases u with | fb => exact absurd hw hu | _ => exact ht
  pace hw _ _ _ ht := by cases u with | pace => exact absurd hw hu | _ => exact ht
  draw hw _ _ ht := by cases u with | rng => exact absurd hw hu | _ => exact ht
  fault hw _ _ ht _ := by cases u with | fault => exact absurd hw hu | _ => exact ht
  drawWaits hw _ _ _ ht _ _ := by cases u with | rng => exact absurd hw hu | _ => exact ht
  beatWaits hw _ _ _ ht _ _ := by cases u with | sink => exact absurd hw hu | _ => exact ht

theorem delivering_same {W : List StateUnit} {u : StateUnit} (hu : u ∉ W) (s : State) :
    Delivering W (u.Same s) (u.Same s) := by
  intro hw t fps ht _
  cases u with
  | sink => exact absurd hw hu
  | _ => exact ht

/-- A command leaves every unit alone that it may not write. -/
theorem same_of_not_writes {i : Instr} {u : StateUnit} (hu : u ∉ writes i) (s : State) :
    u.Same s (bodyOf i s).final := by
  have h := keeps_same hu s
  refine (h.sat_bodyOf h (delivering_same hu s) (fun _ ht => ht) (StateUnit.Same.refl u s)).final (fun t ht => ?_)
    fun _ ht => ht
  cases u <;> exact ht

/-- Settles O29: a command keeps every unit of state outside its row of `writes`, and each clause of the statement is one
unit, which the command either may write or keeps. -/
theorem commandsWriteOnlyTheirState : Obligations.CommandsWriteOnlyTheirState := by
  unfold Obligations.CommandsWriteOnlyTheirState
  intro i s t hexec
  rw [exec_eq_bodyOf] at hexec
  cases hexec
  have hsame (u : StateUnit) (hu : u ∉ writes i) : u.Same s (bodyOf i s).final := same_of_not_writes hu s
  have hcreg := hsame .creg
  have hheat := hsame .heat
  have hrain := hsame .rain
  have hsint := hsame .sint
  have hsweep := hsame .sweep
  have hfb := hsame .fb
  have hsink := hsame .sink
  have hrng := hsame .rng
  have hfault := hsame .fault
  have hpace := hsame .pace
  have hport := hsame .port
  cases i <;> simp_all [writes, StateUnit.Same]

end Sys2Proof.Machine
end

section
/-! The histories of one step (10_state R39, 42_effect_control R156). -/

namespace Sys2Proof.Machine

/-- The histories of t are those of s with something added, of it at most n frames. -/
structure Extends (n : Nat) (s t : State) : Prop where
  draws : s.draws <+: t.draws
  frames : s.frames <+: t.frames
  atMost : t.frames.length ≤ s.frames.length + n

theorem Extends.of_same {s t : State} (hd : t.draws = s.draws) (hf : t.frames = s.frames) (n : Nat) :
    Extends n s t where
  draws := hd ▸ List.prefix_rfl
  frames := hf ▸ List.prefix_rfl
  atMost := hf ▸ Nat.le_add_right ..

@[simp] theorem holdReset_draws (p : Config.Parameters) (s : State) : (holdReset p s).draws = s.draws := rfl

@[simp] theorem holdReset_frames (p : Config.Parameters) (s : State) : (holdReset p s).frames = s.frames := rfl

theorem Extends.mono {n m : Nat} {s t : State} (h : Extends n s t) (hnm : n ≤ m) : Extends m s t :=
  { h with atMost := h.atMost.trans (Nat.add_le_add_left hnm _) }

/-- No write but a frame adds to the frames, and a draw adds to the draws. -/
theorem keeps_extends (W : List StateUnit) {n m : Nat} (hnm : n ≤ m) (s : State) :
    Keeps W (Extends n s) (Extends m s) where
  creg _ _ _ h := { h with }
  heat _ _ _ h _ := { h with }
  head _ _ _ h := { h with }
  rint _ _ _ h := { h with }
  sint _ _ _ h := { h with }
  sweep _ _ _ h := { h with }
  fb _ _ _ h _ := { h with }
  pace _ _ _ _ h := { h with }
  draw _ _ _ h := { h with draws := List.prefix_append_of_prefix h.draws }
  fault _ _ _ h _ := { h.mono hnm with }
  drawWaits _ _ _ _ h _ _ := { h.mono hnm with }
  beatWaits _ _ _ _ h _ _ := { h.mono hnm with }

theorem delivering_extends (W : List StateUnit) (s : State) : Delivering W (Extends 0 s) (Extends 1 s) :=
  fun _ _ _ h _ =>
    { draws := h.draws
      frames := List.prefix_append_of_prefix h.frames
      atMost := by simpa using h.atMost }

/-- A command adds at most one frame to the histories and takes nothing out of them. -/
theorem extends_bodyOf (i : Instr) {s t : State} (h : Extends 0 s t) : Extends 1 s (bodyOf i t).final :=
  ((keeps_extends (writes i) (Nat.zero_le 1) s).sat_bodyOf (keeps_extends _ le_rfl s) (delivering_extends _ s)
    (fun _ ht => ht.mono (Nat.zero_le 1)) h).final (fun _ ht => { ht with }) fun _ ht => ht

theorem extends_resetSequence {s t : State} (h : Extends 1 s t) : Extends 1 s (resetSequence hardware t) :=
  ((keeps_extends _ le_rfl s).sat_sequenceBody (s := t) { h with }).final (fun _ ht => { ht with }) fun _ ht => ht

/-- Settles O59: only commands and the reset sequence add to the histories, and only a frame transfer adds a frame. -/
theorem historiesOnlyGrow : Obligations.HistoriesOnlyGrow := by
  unfold Obligations.HistoriesOnlyGrow
  intro s t hstep
  suffices h : Extends 1 s t from ⟨h.draws, h.frames, h.atMost⟩
  rcases step_cases hstep with rfl | ⟨_, rfl⟩ | ⟨_, _, w, i, _, rfl⟩ | ⟨_, _, w, e, _, rfl⟩ | rfl
  · exact .of_same (by simp) (by simp) 1
  · exact extends_resetSequence (.of_same (by simp) (by simp) 1)
  · exact extends_bodyOf i (.of_same (by simp) (by simp) 0)
  · exact .of_same (by simp) (by simp) 1
  · exact .of_same (by simp) (by simp) 1

end Sys2Proof.Machine
end

section
/-! The invariant of the block: what holds while a command runs, and that every way to end leaves `State.Inv` (10_state
R21, R25, R26, R38, 60_exceptions R260, R268). -/

namespace Sys2Proof.Machine

/-- What holds of the block while a command or the reset sequence runs. -/
structure State.Running (s : State) : Prop where
  memory : Memory.wf s.fb = true
  noFault : s.fault = false
  noCode : s.faultCode = .none
  noFaultCmd : s.faultCmd = 0
  outOfReset : s.inReset = false
  noWait : s.wait = .none
  paceIdle : s.paceCnt = none
  heatBound : HeatBounded s.heat
  rates : ∀ f ∈ s.frames, f.fps ∈ legalRates

theorem State.Running.inv_complete {s : State} (h : s.Running) : (complete s).Inv where
  memory := h.memory
  code := by simp [h.noFault, h.noCode]
  command _ := h.noFaultCmd
  halted _ := rfl
  busyWhy := by simp [h.outOfReset, h.noWait]
  quietInReset _ := h.noWait
  noCommand _ := rfl
  paceIdle := h.paceIdle
  heatBound := h.heatBound
  rates := h.rates
  handshake := by simp [State.waitLegal, h.noWait]

theorem State.Running.inv_faultEntry {s : State} (h : s.Running) {code : FaultCode} (hcode : code ≠ .none) :
    (faultEntry code s).Inv where
  memory := h.memory
  code := by simp [hcode]
  command hf := absurd hf (by simp)
  halted _ := rfl
  busyWhy := by simp [h.outOfReset]
  quietInReset _ := rfl
  noCommand _ := rfl
  paceIdle := h.paceIdle
  heatBound := h.heatBound
  rates := h.rates
  handshake := trivial

theorem State.Running.inv_stall {s : State} (h : s.Running) {w : Wait} (hw : w ≠ .none)
    (hlegal : (stall w s).waitLegal) : (stall w s).Inv where
  memory := h.memory
  code := by simp [h.noFault, h.noCode]
  command _ := h.noFaultCmd
  halted hf := absurd hf (by simp [h.noFault])
  busyWhy := by simp [hw]
  quietInReset hr := absurd hr (by simp [h.outOfReset])
  noCommand hb := absurd hb (by simp)
  paceIdle := h.paceIdle
  heatBound := h.heatBound
  rates := h.rates
  handshake := hlegal

/-- Every write of a command keeps the block running, and every early end of it leaves the invariant. -/
theorem keeps_running (W : List StateUnit) : Keeps W State.Running State.Inv where
  creg _ _ _ h := { h with }
  heat _ _ _ h hb := { h with heatBound := hb h.heatBound }
  head _ _ _ h := { h with }
  rint _ _ _ h := { h with }
  sint _ _ _ h := { h with }
  sweep _ _ _ h := { h with }
  fb _ _ _ h hm := { h with memory := hm h.memory }
  pace _ _ _ _ h := { h with paceIdle := rfl }
  draw _ _ _ h := { h with }
  fault _ _ _ h hcode := h.inv_faultEntry hcode
  drawWaits _ s _ _ h hlo hhi := State.Running.inv_stall (s := s.popRng) { h with } (by simp) ⟨hlo, hhi⟩
  beatWaits _ s _ _ h hfps hall := State.Running.inv_stall (s := s.popSink) { h with } (by simp) ⟨hfps, hall⟩

theorem delivering_running (W : List StateUnit) : Delivering W State.Running State.Running := by
  intro _ s fps h hfps
  refine { h with rates := fun f hf => ?_ }
  rcases List.mem_append.mp hf with hf | hf
  · exact h.rates f hf
  · rw [List.mem_singleton.mp hf]
    exact hfps

/-- A command that starts from a running block ends in the invariant. -/
theorem State.Running.inv_bodyOf {s : State} (h : s.Running) (i : Instr) : (bodyOf i s).final.Inv :=
  ((keeps_running _).sat_bodyOf (keeps_running _) (delivering_running _) (fun _ ht => ht) h).final
    (fun _ ht => ht.inv_complete) fun _ ht => ht

theorem inv_resetSequence {s : State} (h : (beginSequence s).Running) : (resetSequence hardware s).Inv :=
  ((keeps_running _).sat_sequenceBody h).final (fun _ ht => ht.inv_complete) fun _ ht => ht

/-- Acceptance of a word by a ready block sets it running (R21). -/
theorem State.Inv.running_accept {s : State} (h : s.Inv) (hr : s.inReset = false) (hready : s.cmdReady = true)
    (w : Word) : (accept w s.popHost).Running := by
  obtain ⟨hbusy, hfault⟩ : s.busy = false ∧ s.fault = false := by simpa [State.cmdReady] using hready
  exact {
    memory := h.memory
    noFault := hfault
    noCode := by simpa [hfault] using h.code
    noFaultCmd := h.command hfault
    outOfReset := hr
    noWait := by simpa [hbusy, hr] using h.busyWhy
    paceIdle := h.paceIdle
    heatBound := h.heatBound
    rates := h.rates }

/-- The first writes of the reset sequence set the block running (70_reset R280). -/
theorem State.Inv.running_beginSequence {s : State} (h : s.Inv) (hr : s.inReset = true) :
    (beginSequence s.popHost).Running where
  memory := Memory.wf_nil
  noFault := rfl
  noCode := rfl
  noFaultCmd := rfl
  outOfReset := rfl
  noWait := h.quietInReset hr
  paceIdle := h.paceIdle
  heatBound := h.heatBound
  rates := h.rates

theorem State.Inv.holdReset {s : State} (h : s.Inv) : (holdReset hardware s.popHost).Inv where
  memory := Memory.wf_nil
  code := by simp [Machine.holdReset]
  command _ := rfl
  halted hf := absurd hf (by simp [Machine.holdReset])
  busyWhy := by simp [Machine.holdReset]
  quietInReset _ := rfl
  noCommand _ := rfl
  paceIdle := rfl
  heatBound := heatBounded_fillBank
  rates := h.rates
  handshake := trivial

theorem State.Inv.popHost {s : State} (h : s.Inv) : s.popHost.Inv := { h with }

theorem codeOf_ne_none (e : DecodeFault) : codeOf e ≠ .none := by
  cases e <;> decide

/-- Settles O57: each kind of step leaves the invariant; a command or the reset sequence does so from a running
block. -/
theorem stepKeepsInvariant : Obligations.StepKeepsInvariant := by
  unfold Obligations.StepKeepsInvariant
  intro s t h hstep
  rcases step_cases hstep with rfl | ⟨hr, rfl⟩ | ⟨hr, hready, w, i, _, rfl⟩ | ⟨hr, hready, w, e, _, rfl⟩ | rfl
  · exact h.holdReset
  · exact inv_resetSequence (h.running_beginSequence hr)
  · exact (h.running_accept hr hready w).inv_bodyOf i
  · exact (h.running_accept hr hready w).inv_faultEntry (codeOf_ne_none e)
  · exact h.popHost

/-- Settles O58: no word is in progress, nothing waits, and every heat index is FIRE_INIT. -/
theorem resetMeetsInvariant : Obligations.ResetMeetsInvariant := by
  unfold Obligations.ResetMeetsInvariant
  exact {
    memory := Memory.wf_nil
    code := by decide
    command := fun _ => rfl
    halted := fun _ => rfl
    busyWhy := by decide
    quietInReset := fun _ => rfl
    noCommand := fun _ => rfl
    paceIdle := rfl
    heatBound := heatBounded_fillBank
    rates := fun _ hf => absurd hf List.not_mem_nil
    handshake := trivial }

end Sys2Proof.Machine
end

section
/-! Commands and CREG: what a command does when CREG alone is another (10_state R24). -/

namespace Sys2Proof.Machine

/-- The same outcome of a part with the state it leaves changed by g. -/
def Flow.map (g : State → State) : Flow → Flow
  | .go s => .go (g s)
  | .halt s => .halt (g s)

/-- A part of a command neither reads nor writes CREG. -/
def CregBlind (part : State → Flow) : Prop :=
  ∀ (s : State) (v : Colour), part (s.setCreg v) = (part s).map (·.setCreg v)

theorem Flow.final_map_setCreg (f : Flow) (v : Colour) : (f.map (·.setCreg v)).final = f.final.setCreg v := by
  cases f <;> rfl

theorem cregBlind_go {g : State → State} (h : ∀ s v, g (s.setCreg v) = (g s).setCreg v) :
    CregBlind fun s => .go (g s) :=
  fun s v => congrArg Flow.go (h s v)

theorem CregBlind.comp {part : State → Flow} (hp : CregBlind part) {g : State → State}
    (h : ∀ s v, g (s.setCreg v) = (g s).setCreg v) : CregBlind fun s => part (g s) := by
  intro s v
  change part (g (s.setCreg v)) = _
  rw [h, hp]

theorem CregBlind.andThen {part next : State → Flow} (hp : CregBlind part) (hn : CregBlind next) :
    CregBlind fun s => (part s).andThen next := by
  intro s v
  change (part (s.setCreg v)).andThen next = ((part s).andThen next).map _
  rw [hp]
  cases part s with
  | go t => exact hn t v
  | halt t => rfl

theorem CregBlind.loop {α : Type} {part : α → State → Flow} (hp : ∀ a, CregBlind (part a)) (l : List α) :
    CregBlind (Flow.loop part l) := by
  induction l with
  | nil => exact fun _ _ => rfl
  | cons a l ih => exact (hp a).andThen ih

theorem CregBlind.times {part : State → Flow} (hp : CregBlind part) (n : Nat) : CregBlind (Flow.times part n) := by
  induction n with
  | zero => exact fun _ _ => rfl
  | succ n ih => exact hp.andThen ih

theorem cregBlind_withDraw (lo : Byte) (hi : BitVec 9) {rest : Byte → State → Flow}
    (hr : ∀ a, CregBlind (rest a)) : CregBlind fun s => withDraw lo hi s rest := by
  intro s v
  have hreply : (s.setCreg v).nextReply = s.nextReply := rfl
  change withDraw lo hi (s.setCreg v) rest = (withDraw lo hi s rest).map _
  unfold withDraw
  rw [hreply]
  cases s.nextReply with
  | never => rfl
  | ack a =>
    dsimp only
    split
    · exact hr a (s.popRng.recordDraw _) v
    · rfl

theorem cregBlind_present (fps : Fps) : CregBlind (present fps) := by
  intro s v
  have hall : (s.setCreg v).fbAllValid = s.fbAllValid := rfl
  have hsink : (s.setCreg v).nextSink = s.nextSink := rfl
  unfold present
  rw [hall, hsink]
  split
  · cases s.nextSink <;> rfl
  · rfl

theorem cregBlind_initRain (p : Config.Parameters) : CregBlind (initRain p) := by
  have hcell (k : Cell) : CregBlind (initHead p k) := cregBlind_withDraw _ _ fun _ => cregBlind_go fun _ _ => rfl
  exact (CregBlind.loop hcell linear).comp fun _ _ => rfl

theorem cregBlind_advanceFire (p : Config.Parameters) : CregBlind (advanceFire p) := by
  have hseed (c : Col) : CregBlind (seedColumn p c) := cregBlind_withDraw _ _ fun _ => cregBlind_go fun _ _ => rfl
  exact (CregBlind.loop hseed cols).comp fun _ _ => rfl

theorem cregBlind_advanceRain (p : Config.Parameters) : CregBlind (advanceRain p) := by
  have hattempt : CregBlind attempt :=
    cregBlind_withDraw _ _ fun _ => cregBlind_withDraw _ _ fun _ => cregBlind_go fun _ _ => rfl
  exact (hattempt.times _).andThen (cregBlind_go fun _ _ => rfl)

theorem cregBlind_advanceStar (p : Config.Parameters) : CregBlind (advanceStar p) := by
  have hspawn : CregBlind (spawnStar p) :=
    cregBlind_withDraw _ _ fun _ => cregBlind_withDraw _ _ fun _ => cregBlind_go fun _ _ => rfl
  have hafter (v : Byte) : CregBlind fun s => if v = 0 then spawnStar p s else .go s := by
    split
    · exact hspawn
    · exact cregBlind_go fun _ _ => rfl
  exact (cregBlind_withDraw _ _ hafter).comp (g := fun s => s.setSint (fadeStar p s.sint)) fun _ _ => rfl

theorem cregBlind_update (p : Config.Parameters) (fps : Fps) {render : State → State} {advance : State → Flow}
    (hrender : ∀ s v, render (s.setCreg v) = (render s).setCreg v) (hadvance : CregBlind advance) :
    CregBlind (update p fps render advance) :=
  ((cregBlind_present fps).comp hrender).andThen (hadvance.comp fun _ _ => rfl)

/-- No command that leaves CREG alone reads it, but FILL and SET (R24). -/
theorem cregBlind_bodyOf {i : Instr} (hfill : i ≠ .fill) (hset : ∀ r c, i ≠ .set r c)
    (hcreg : .creg ∉ writes i) : CregBlind (bodyOf i) := by
  cases i with
  | nop => exact fun _ _ => rfl
  | initFire | initStar | initSweep | advanceSweep => exact cregBlind_go fun _ _ => rfl
  | renderFire | renderRain | renderStar | renderSweep => exact cregBlind_go fun _ _ => rfl
  | initRain => exact cregBlind_initRain hardware
  | presentFire | presentRain | presentStar | presentSweep => exact cregBlind_present _
  | advanceFire => exact cregBlind_advanceFire hardware
  | advanceRain => exact cregBlind_advanceRain hardware
  | advanceStar => exact cregBlind_advanceStar hardware
  | updateFire => exact cregBlind_update _ _ (fun _ _ => rfl) (cregBlind_advanceFire hardware)
  | updateRain => exact cregBlind_update _ _ (fun _ _ => rfl) (cregBlind_advanceRain hardware)
  | updateStar => exact cregBlind_update _ _ (fun _ _ => rfl) (cregBlind_advanceStar hardware)
  | updateSweep => exact cregBlind_update _ _ (fun _ _ => rfl) (cregBlind_go fun _ _ => rfl)
  | fill => exact absurd rfl hfill
  | set r c => exact absurd rfl (hset r c)
  | ldc _ | get _ _ | interpFire _ | interpHue _ => simp [writes] at hcreg

/-- GET of a written cell loads it whatever CREG holds; else it faults and leaves CREG alone (R105). -/
theorem atCell_getCell_setCreg (row col : BitVec 4) (s : State) (v : Colour) :
    atCell row col getCell (s.setCreg v) = atCell row col getCell s ∨
    atCell row col getCell (s.setCreg v) = (atCell row col getCell s).map (·.setCreg v) ∧
      (atCell row col getCell s).final.creg = s.creg := by
  unfold atCell getCell
  rw [setCreg_fb]
  split
  · cases Memory.read s.fb (fieldIndex row col) with
    | some c => exact .inl rfl
    | none => exact .inr ⟨rfl, rfl⟩
  · exact .inr ⟨rfl, rfl⟩

/-- A command but FILL and SET either loads CREG whatever it held, or carries it along unchanged (R24). -/
theorem bodyOf_setCreg {i : Instr} (hfill : i ≠ .fill) (hset : ∀ r c, i ≠ .set r c) (s : State) (v : Colour) :
    bodyOf i (s.setCreg v) = bodyOf i s ∨
    bodyOf i (s.setCreg v) = (bodyOf i s).map (·.setCreg v) ∧ (bodyOf i s).final.creg = s.creg := by
  by_cases hcreg : .creg ∈ writes i
  · cases i with
    | ldc _ | interpFire _ | interpHue _ => exact .inl rfl
    | get row col => exact atCell_getCell_setCreg row col s v
    | _ => simp [writes] at hcreg
  · exact .inr ⟨cregBlind_bodyOf hfill hset hcreg s v, same_of_not_writes hcreg s⟩

/-- Settles O30: with another CREG a command leaves the same state, or that state with the other CREG. -/
theorem onlyFillAndSetReadCreg : Obligations.OnlyFillAndSetReadCreg := by
  unfold Obligations.OnlyFillAndSetReadCreg
  intro i s t v hfill hset hexec
  rw [exec_eq_bodyOf] at hexec
  cases hexec
  refine ⟨_, exec_eq_bodyOf i (s.setCreg v), ?_⟩
  rcases bodyOf_setCreg hfill hset s v with h | ⟨h, hkept⟩
  · rw [h]
    exact ⟨rfl, .inl rfl⟩
  · rw [h, Flow.final_map_setCreg]
    exact ⟨rfl, .inr ⟨hkept, rfl⟩⟩

end Sys2Proof.Machine
end

section
/-! The frame buffer as memory: the cell indices (20_memory R51), the order of a whole-buffer fill (R54) and the commands
that repeated change nothing (R58). -/

namespace Sys2Proof.Machine

/-- Settles O31: the index determines row and column by division, and `rowOf` and `colOf` give them back. -/
theorem cellIndexIsBijection : Obligations.CellIndexIsBijection := by
  unfold Obligations.CellIndexIsBijection
  refine ⟨fun r c => ⟨rfl, congrArg Fin.val (rowOf_idx r c), congrArg Fin.val (colOf_idx r c)⟩, fun k => ?_,
    fun k => ⟨rfl, rfl, idx_rowOf_colOf k⟩⟩
  refine ⟨(rowOf k, colOf k), idx_rowOf_colOf k, ?_⟩
  rintro ⟨r, c⟩ rfl
  exact Prod.ext (rowOf_idx r c).symm (colOf_idx r c).symm

/-- Writing the cells in any order that visits each of them, repeated visits included, gives what the fill gives. -/
theorem foldl_write_eq_fillFrom (colour : Row → Col → Colour) {m : Memory} (hm : Memory.wf m = true) {order : List Cell}
    (hall : ∀ k, k ∈ order) :
    order.foldl (fun m k => Memory.write m k.val (colour (rowOf k) (colOf k))) m = fillFrom colour m := by
  refine Memory.ext (wf_foldl_write (fun k => colour (rowOf k) (colOf k)) order hm) (wf_fillFrom colour hm) fun a => ?_
  rw [read_foldl_write (fun k => colour (rowOf k) (colOf k)), read_fillFrom]
  simp only [hall, if_true]

/-- Settles O27: an order that is a permutation of the cells visits each of them. -/
theorem fillOrderHasNoEffect : Obligations.FillOrderHasNoEffect := by
  unfold Obligations.FillOrderHasNoEffect
  intro colour m order hm horder
  exact foldl_write_eq_fillFrom colour hm fun k => horder.mem_iff.mpr (by simp [linear])

/-- Nothing of an earlier fill is left after a later one. -/
theorem fillFrom_fillFrom (colour colour' : Row → Col → Colour) {m : Memory} (hm : Memory.wf m = true) :
    fillFrom colour (fillFrom colour' m) = fillFrom colour m := by
  refine Memory.ext (wf_fillFrom colour (wf_fillFrom colour' hm)) (wf_fillFrom colour hm) fun a => ?_
  rw [read_fillFrom, read_fillFrom, read_fillFrom]
  split <;> rfl

/-- A write made again changes nothing. -/
theorem Memory.write_write_same (m : Memory) (k : Nat) (v : Colour) :
    Memory.write (Memory.write m k v) k v = Memory.write m k v := by
  induction m with
  | nil => simp [Memory.write]
  | cons e m ih =>
    obtain ⟨a, c⟩ := e
    rcases Nat.lt_trichotomy k a with hlt | heq | hgt
    · simp [Memory.write, hlt]
    · simp [Memory.write, heq]
    · simp [Memory.write, Nat.not_lt_of_gt hgt, Nat.ne_of_gt hgt, ih]

/-- A command issued twice in a row: its body runs again from the state it left. -/
theorem execAll_twice (i : Instr) (s : State) : execAll [i, i] s = .next (bodyOf i (bodyOf i s).final).final := by
  simp only [execAll, exec_eq_bodyOf]

/-- FILL or a RENDER done again with the same colours changes nothing (R103, R106). -/
theorem complete_renderWith_again (colour : Row → Col → Colour) {s : State} (hs : Memory.wf s.fb = true) :
    complete (renderWith colour (complete (renderWith colour s))) = complete (renderWith colour s) :=
  congrArg (fun m => complete (s.setFb m)) (fillFrom_fillFrom colour colour hs)

/-- SET done again writes the value the cell holds; one that faults is left out (R104). -/
theorem final_set_again {row col : BitVec 4} {s : State} (hf : (atCell row col setCell s).final.fault = false) :
    (atCell row col setCell (atCell row col setCell s).final).final = (atCell row col setCell s).final := by
  unfold atCell at hf ⊢
  split
  · exact congrArg (fun m => complete (s.setFb m)) (Memory.write_write_same s.fb _ s.creg)
  · next hcol => simp [hcol] at hf

/-- GET done again loads the colour CREG holds; one that faults is left out (R105). -/
theorem final_get_again {row col : BitVec 4} {s : State} (hf : (atCell row col getCell s).final.fault = false) :
    (atCell row col getCell (atCell row col getCell s).final).final = (atCell row col getCell s).final := by
  unfold atCell at hf ⊢
  split
  · next hcol =>
    rw [if_pos hcol] at hf
    cases hread : Memory.read s.fb (fieldIndex row col) with
    | some c => simp [getCell, hread, complete, State.setCreg]
    | none => simp [getCell, hread] at hf
  · next hcol => simp [hcol] at hf

/-- Settles O28: LDC, INTERP and INIT load a value that does not depend on what they write; a second FILL or RENDER
overwrites the first with the same colours; SET and GET find cell and CREG already equal. -/
theorem repeatedCommandChangesNothing : Obligations.RepeatedCommandChangesNothing := by
  unfold Obligations.RepeatedCommandChangesNothing
  intro i s t hwf hi hexec hf
  rw [exec_eq_bodyOf] at hexec
  cases hexec
  refine (execAll_twice i s).trans (congrArg _ ?_)
  cases i with
  | ldc _ | interpFire _ | interpHue _ => rfl
  | initFire | initStar | initSweep => rfl
  | fill | renderFire | renderRain | renderStar | renderSweep => exact complete_renderWith_again _ hwf
  | set row col => exact final_set_again hf
  | get row col => exact final_get_again hf
  | _ => exact hi.elim

end Sys2Proof.Machine
end

section
/-! The fields of a command word: what each format with operands puts into them, and that a word whose reserved field is 0
is the word of its fields (30_encoding R70 to R76). -/

namespace Sys2Proof

open BitVec

section
variable (op row col : BitVec 4) (pal : BitVec 1) (i : Byte) (v : Colour)

@[simp] theorem opField_ldc : opField (encode (.ldc v)) = 0x6#4 := by
  rw [opField, encode, extractLsb'_append_eq_of_le (by decide), extractLsb'_append_eq_left]

@[simp] theorem reserved_ldc : (encode (.ldc v)).extractLsb' 24 4 = 0#4 := by
  rw [encode, extractLsb'_append_eq_of_le (by decide), extractLsb'_append_eq_right]

@[simp] theorem immField_ldc : immField (encode (.ldc v)) = v := by
  rw [immField, encode, extractLsb'_append_eq_right]

@[simp] theorem opField_encodeA : opField (encodeA op row col) = op := by
  rw [opField, encodeA, extractLsb'_append_eq_of_le (by decide), extractLsb'_append_eq_of_le (by decide),
    extractLsb'_append_eq_left]

@[simp] theorem reserved_encodeA : (encodeA op row col).extractLsb' 8 20 = 0#20 := by
  rw [encodeA, extractLsb'_append_eq_of_le (by decide), extractLsb'_append_eq_of_le (by decide),
    extractLsb'_append_eq_right]

@[simp] theorem colField_encodeA : colField (encodeA op row col) = col := by
  rw [colField, encodeA, extractLsb'_append_eq_of_le (by decide), extractLsb'_append_eq_right]

@[simp] theorem rowField_encodeA : rowField (encodeA op row col) = row := by
  rw [rowField, encodeA, extractLsb'_append_eq_right]

@[simp] theorem opField_encodeP : opField (encodeP pal i) = 0xA#4 := by
  rw [opField, encodeP, extractLsb'_append_eq_of_le (by decide), extractLsb'_append_eq_of_le (by decide),
    extractLsb'_append_eq_of_le (by decide), extractLsb'_append_eq_left]

@[simp] theorem reservedHigh_encodeP : (encodeP pal i).extractLsb' 25 3 = 0#3 := by
  rw [encodeP, extractLsb'_append_eq_of_le (by decide), extractLsb'_append_eq_of_le (by decide),
    extractLsb'_append_eq_of_le (by decide), extractLsb'_append_eq_right]

@[simp] theorem palField_encodeP : palField (encodeP pal i) = pal := by
  rw [palField, encodeP, extractLsb'_append_eq_of_le (by decide), extractLsb'_append_eq_of_le (by decide),
    extractLsb'_append_eq_right]

@[simp] theorem reservedLow_encodeP : (encodeP pal i).extractLsb' 8 16 = 0#16 := by
  rw [encodeP, extractLsb'_append_eq_of_le (by decide), extractLsb'_append_eq_right]

@[simp] theorem pidxField_encodeP : pidxField (encodeP pal i) = i := by
  rw [pidxField, encodeP, extractLsb'_append_eq_right]

end

section
variable {w : Word} {op : BitVec 4} (hop : (opField w).toNat = op.toNat)
include hop

theorem encodeN_eq_of_reserved (h : w.extractLsb' 0 28 = 0) : encodeN op = w := by
  have hw : opField w ++ w.extractLsb' 0 28 = w := extractLsb'_append_extractLsb'
  rwa [eq_of_toNat_eq hop, h] at hw

theorem encodeE_eq_of_reserved (h : w.extractLsb' 0 26 = 0) : encodeE op (effField w) = w := by
  have hhigh : opField w ++ effField w = w.extractLsb' 26 6 := extractLsb'_append_extractLsb'_eq_extractLsb' rfl
  have hw : w.extractLsb' 26 6 ++ w.extractLsb' 0 26 = w := extractLsb'_append_extractLsb'
  rwa [← hhigh, eq_of_toNat_eq hop, h] at hw

theorem encodeA_eq_of_reserved (h : w.extractLsb' 8 20 = 0) : encodeA op (rowField w) (colField w) = w := by
  have h8 : opField w ++ w.extractLsb' 8 20 = w.extractLsb' 8 24 := extractLsb'_append_extractLsb'_eq_extractLsb' rfl
  have h4 : w.extractLsb' 8 24 ++ colField w = w.extractLsb' 4 28 := extractLsb'_append_extractLsb'_eq_extractLsb' rfl
  have hw : w.extractLsb' 4 28 ++ rowField w = w := extractLsb'_append_extractLsb'
  rwa [← h4, ← h8, eq_of_toNat_eq hop, h] at hw

end

section
variable {w : Word}

theorem encode_ldc_eq_of_reserved (hop : (opField w).toNat = 0x6) (h : w.extractLsb' 24 4 = 0) :
    encode (.ldc (immField w)) = w := by
  have hhigh : opField w ++ w.extractLsb' 24 4 = w.extractLsb' 24 8 := extractLsb'_append_extractLsb'_eq_extractLsb' rfl
  have hw : w.extractLsb' 24 8 ++ immField w = w := extractLsb'_append_extractLsb'
  rwa [← hhigh, eq_of_toNat_eq (y := 0x6#4) hop, h] at hw

theorem encodeP_eq_of_reserved (hop : (opField w).toNat = 0xA) (hhigh : w.extractLsb' 25 3 = 0)
    (hlow : w.extractLsb' 8 16 = 0) : encodeP (palField w) (pidxField w) = w := by
  have h25 : opField w ++ w.extractLsb' 25 3 = w.extractLsb' 25 7 := extractLsb'_append_extractLsb'_eq_extractLsb' rfl
  have h24 : w.extractLsb' 25 7 ++ palField w = w.extractLsb' 24 8 := extractLsb'_append_extractLsb'_eq_extractLsb' rfl
  have h8 : w.extractLsb' 24 8 ++ w.extractLsb' 8 16 = w.extractLsb' 8 24 :=
    extractLsb'_append_extractLsb'_eq_extractLsb' rfl
  have hw : w.extractLsb' 8 24 ++ pidxField w = w := extractLsb'_append_extractLsb'
  rwa [← h8, ← h24, ← h25, eq_of_toNat_eq (y := 0xA#4) hop, hhigh, hlow] at hw

end

end Sys2Proof
end

section
/-! The decoder: the words on which it raises each fault (30_encoding R78), and that on the words it accepts it is the
inverse of the encoder (R77, R79). -/

namespace Sys2Proof

section
variable {w : Word} {i : Instr}

theorem decode_illegalOpcode (h : selectCommand w = none) : decode w = .error .illegalOpcode := by
  simp [decode, h]

theorem decode_reservedBits (h : selectCommand w = some i) (hr : reservedBitSet w = true) :
    decode w = .error .reservedBits := by
  simp [decode, h, hr]

theorem decode_coordRange (h : selectCommand w = some i) (hr : reservedBitSet w = false) (hc : badColumn w = true) :
    decode w = .error .coordRange := by
  simp [decode, h, hr, hc]

/-- The decoder accepts the words on which no line of R78 raises a fault. -/
theorem decode_eq_ok_iff :
    decode w = .ok i ↔ selectCommand w = some i ∧ reservedBitSet w = false ∧ badColumn w = false := by
  unfold decode
  cases selectCommand w with
  | none => simp
  | some j => cases reservedBitSet w <;> cases badColumn w <;> simp

/-- The first line of R78: the opcode map has rows for OP up to 0xA. -/
theorem selectCommand_eq_none_iff : selectCommand w = none ↔ 0xB ≤ (opField w).toNat := by
  unfold selectCommand
  split
  case h_12 => simp only [imp_false, true_iff] at *; omega
  all_goals simp [*]

/-- The reserved-field lines of R78, one for each format. -/
theorem reservedBitSet_eq_true_iff : reservedBitSet w = true ↔
    ((opField w).toNat = 0x0 ∨ (opField w).toNat = 0x7) ∧ w.extractLsb' 0 28 ≠ 0 ∨
    (0x1 ≤ (opField w).toNat ∧ (opField w).toNat ≤ 0x5) ∧ w.extractLsb' 0 26 ≠ 0 ∨
    (opField w).toNat = 0x6 ∧ w.extractLsb' 24 4 ≠ 0 ∨
    ((opField w).toNat = 0x8 ∨ (opField w).toNat = 0x9) ∧ w.extractLsb' 8 20 ≠ 0 ∨
    (opField w).toNat = 0xA ∧ (w.extractLsb' 25 3 ≠ 0 ∨ w.extractLsb' 8 16 ≠ 0) := by
  unfold reservedBitSet
  split
  case h_12 => simp only [imp_false] at *; simp [*]; omega
  all_goals simp [*]

/-- A word on which no reserved-field line raises a fault holds 0 in the reserved field of its format. -/
theorem reserved_eq_zero (h : reservedBitSet w = false) :
    ((opField w).toNat = 0x0 ∨ (opField w).toNat = 0x7 → w.extractLsb' 0 28 = 0) ∧
    (0x1 ≤ (opField w).toNat ∧ (opField w).toNat ≤ 0x5 → w.extractLsb' 0 26 = 0) ∧
    ((opField w).toNat = 0x6 → w.extractLsb' 24 4 = 0) ∧
    ((opField w).toNat = 0x8 ∨ (opField w).toNat = 0x9 → w.extractLsb' 8 20 = 0) ∧
    ((opField w).toNat = 0xA → w.extractLsb' 25 3 = 0 ∧ w.extractLsb' 8 16 = 0) := by
  simpa only [← Bool.not_eq_true, reservedBitSet_eq_true_iff, not_or, not_and, not_not] using h

/-- The last line of R78. -/
theorem badColumn_eq_true_iff : badColumn w = true ↔
    ((opField w).toNat = 0x8 ∨ (opField w).toNat = 0x9) ∧ 14 ≤ (colField w).toNat := by
  simp [badColumn, ← BitVec.toNat_inj]

end

theorem legalCol_iff {col : BitVec 4} : legalCol col = true ↔ col.toNat < 14 := by
  simp [legalCol]

/-- The decoder reads back the word of a well-formed command: a format-N or format-E word is one fixed word, and the other
formats give back their operand fields and select their row. -/
theorem decode_encode {i : Instr} (h : i.wellFormed = true) : decode (encode i) = .ok i := by
  cases i with
  | ldc v => simp [decode_eq_ok_iff, selectCommand, reservedBitSet, badColumn]
  | set row col | get row col =>
    have hcol : col.toNat < 14 := legalCol_iff.mp h
    simp [decode_eq_ok_iff, encode, selectCommand, reservedBitSet, badColumn, hcol]
  | interpFire i | interpHue i => simp [decode_eq_ok_iff, encode, selectCommand, reservedBitSet, badColumn]
  | _ => decide

/-- Settles O1, by the formats. -/
theorem decodesEncodedCommand : Obligations.DecodesEncodedCommand := by
  unfold Obligations.DecodesEncodedCommand
  exact fun _ => decode_encode

theorem decode_of_encode_eq {w : Word} {i : Instr} (hw : encode i = w) (h : i.wellFormed = true) : decode w = .ok i :=
  hw ▸ decode_encode h

/-- Settles O3: the encoder gives each of the twelve words for its command. -/
theorem specWordsDecode : Obligations.SpecWordsDecode := by
  unfold Obligations.SpecWordsDecode
  refine ⟨?_, ?_, ?_, ?_, ?_, ?_, ?_, ?_, ?_, ?_, ?_, ?_⟩ <;> exact decode_of_encode_eq (by decide) rfl

/-- The command is well-formed and this is its word. -/
abbrev IsWordOf (w : Word) (i : Instr) : Prop := encode i = w ∧ i.wellFormed = true

theorem IsWordOf.of_eq {w w' : Word} {i : Instr} (h : IsWordOf w i) (hw : w = w') : IsWordOf w' i :=
  ⟨h.1.trans hw, h.2⟩

/-- A command selected by PAL is the one of its format-P word (R76). -/
theorem isWordOf_encodeP (pal : BitVec 1) (i : Byte) :
    IsWordOf (encodeP pal i) (if pal = 0 then .interpFire i else .interpHue i) := by
  split
  · next h => exact ⟨by rw [h, encode], rfl⟩
  · next h =>
    have hone : pal = 1 := (BitVec.eq_zero_or_eq_one pal).resolve_left h
    exact ⟨by rw [hone, encode], rfl⟩

/-- The command the opcode map selects for a word with no fault is the one whose word it is (R77, R79). -/
theorem isWordOf_of_selectCommand {w : Word} {i : Instr} (h : selectCommand w = some i) (hr : reservedBitSet w = false)
    (hc : badColumn w = false) : IsWordOf w i := by
  obtain ⟨hN, hE, hI, hA, hP⟩ := reserved_eq_zero hr
  have hcol (hop : (opField w).toNat = 0x8 ∨ (opField w).toNat = 0x9) : legalCol (colField w) = true := by
    have hbad : ¬ badColumn w = true := by simp [hc]
    rw [badColumn_eq_true_iff] at hbad
    exact legalCol_iff.mpr (by omega)
  have hEff (op : BitVec 4) {fire rain star sweep : Instr} (hop : (opField w).toNat = op.toNat)
      (hle : 1 ≤ op.toNat ∧ op.toNat ≤ 5) (hrow : ∀ eff, IsWordOf (encodeE op eff) (byEffect eff fire rain star sweep)) :
      IsWordOf w (byEffect (effField w) fire rain star sweep) :=
    (hrow (effField w)).of_eq (encodeE_eq_of_reserved hop (hE (by omega)))
  unfold selectCommand at h
  split at h
  case h_12 => cases h
  all_goals (rename_i hop; cases h)
  · exact ⟨encodeN_eq_of_reserved hop (hN (.inl hop)), rfl⟩
  · exact hEff 0x1 hop (by decide) (by decide)
  · exact hEff 0x2 hop (by decide) (by decide)
  · exact hEff 0x3 hop (by decide) (by decide)
  · exact hEff 0x4 hop (by decide) (by decide)
  · exact hEff 0x5 hop (by decide) (by decide)
  · exact ⟨encode_ldc_eq_of_reserved hop (hI hop), rfl⟩
  · exact ⟨encodeN_eq_of_reserved hop (hN (.inr hop)), rfl⟩
  · exact ⟨encodeA_eq_of_reserved hop (hA (.inl hop)), hcol (.inl hop)⟩
  · exact ⟨encodeA_eq_of_reserved hop (hA (.inr hop)), hcol (.inr hop)⟩
  · obtain ⟨hhigh, hlow⟩ := hP hop
    exact (isWordOf_encodeP (palField w) (pidxField w)).of_eq (encodeP_eq_of_reserved hop hhigh hlow)

/-- Settles O2: the word selects its command and no line of R78 raises a fault on it. -/
theorem acceptedWordIsEncoding : Obligations.AcceptedWordIsEncoding := by
  unfold Obligations.AcceptedWordIsEncoding
  intro w i h
  obtain ⟨hsel, hres, hcol⟩ := decode_eq_ok_iff.mp h
  exact isWordOf_of_selectCommand hsel hres hcol

end Sys2Proof
end

section
/-! The decode order at a step: the edge of a ready block that is offered a word (30_encoding R78). -/

namespace Sys2Proof.Machine

/-- A ready block raises the fault the decoder raises on the word it accepts (R78, 60_exceptions R260). -/
theorem step_of_decode_error {s : State} {w : Word} {rest : List HostAct} {e : DecodeFault}
    (hhost : s.host = .offer w :: rest) (hr : s.inReset = false) (hready : s.cmdReady = true)
    (hd : decode w = .error e) :
    step s = .next (faultEntry (codeOf e) { s with host := rest, busy := true, cmdWord := w }) := by
  rw [step_of_offer_ready (hostAct_cons hhost) hr hready, popHost_cons hhost, runWord, hd]
  rfl

/-- Settles O4: the lines of the chain are the lines on which the decoder raises a fault, and a word that passes them all
is accepted. -/
theorem decodeRaisesFirstFault : Obligations.DecodeRaisesFirstFault := by
  unfold Obligations.DecodeRaisesFirstFault
  intro s w rest hhost hr hready a op
  have hfault {e : DecodeFault} (hd : decode w = .error e) : step s = .next (faultEntry (codeOf e) a) :=
    step_of_decode_error hhost hr hready hd
  by_cases hop : 0xB ≤ op
  · rw [if_pos hop]
    exact hfault (decode_illegalOpcode (selectCommand_eq_none_iff.mpr hop))
  obtain ⟨i, hsel⟩ := Option.ne_none_iff_exists'.mp (mt selectCommand_eq_none_iff.mp hop)
  rw [if_neg hop]
  have hreserved (h : reservedBitSet w = true) : step s = .next (faultEntry .reservedBits a) :=
    hfault (decode_reservedBits hsel h)
  rw [reservedBitSet_eq_true_iff] at hreserved
  split
  · next hN => exact hreserved (.inl hN)
  split
  · next hE => exact hreserved (.inr (.inl hE))
  split
  · next hI => exact hreserved (.inr (.inr (.inl hI)))
  split
  · next hA => exact hreserved (.inr (.inr (.inr (.inl hA))))
  split
  · next hP => exact hreserved (.inr (.inr (.inr (.inr hP))))
  next hN hE hI hA hP =>
  have hclear : reservedBitSet w = false := by
    rw [← Bool.not_eq_true, reservedBitSet_eq_true_iff]
    simp only [not_or]
    exact ⟨hN, hE, hI, hA, hP⟩
  split
  · next hcol => exact hfault (decode_coordRange hsel hclear (badColumn_eq_true_iff.mpr hcol))
  · next hcol =>
    have hlegal : badColumn w = false := Bool.eq_false_iff.mpr (mt badColumn_eq_true_iff.mp hcol)
    obtain ⟨hword, hwf⟩ := isWordOf_of_selectCommand hsel hclear hlegal
    have hok : decode w = .ok i := decode_eq_ok_iff.mpr ⟨hsel, hclear, hlegal⟩
    exact ⟨i, hword, hwf, stepExecutesDecodedCommand s w rest i hhost hr hready hok⟩

end Sys2Proof.Machine
end

section
/-! The assembler: every command it expands a line to is well-formed (30_encoding R81, R82). -/

namespace Sys2Proof.Machine

theorem plainForms_wellFormed : ∀ form ∈ plainForms, ∀ i ∈ form.2, i.wellFormed = true := by
  decide

/-- A cell form that is not refused has a column below 14 (R81). -/
theorem cellForm_eq_some {f : BitVec 4 → BitVec 4 → Instr} {r c : Nat} {i : Instr} (h : cellForm f r c = some i) :
    ∃ row col, i = f row col ∧ legalCol col = true := by
  unfold cellForm at h
  split at h
  · next hrange =>
    cases h
    exact ⟨_, _, rfl, legalCol_iff.mpr (by simp only [BitVec.toNat_ofNat]; omega)⟩
  · cases h

theorem expand_wellFormed {mnemonic : List Char} {operands : List AsmOperand} {is : List Instr}
    (h : expand mnemonic operands = some is) : ∀ i ∈ is, i.wellFormed = true := by
  unfold expand at h
  split at h
  · obtain ⟨form, hfind, rfl⟩ := Option.map_eq_some_iff.mp h
    exact plainForms_wellFormed form (List.mem_of_find?_eq_some hfind)
  · split_ifs at h
    all_goals
      obtain ⟨v, -, rfl⟩ := Option.map_eq_some_iff.mp h
      simp [Instr.wellFormed]
  · split_ifs at h
    all_goals
      obtain ⟨i, hcell, rfl⟩ := Option.map_eq_some_iff.mp h
      obtain ⟨row, col, rfl, hcol⟩ := cellForm_eq_some hcell
      simpa [Instr.wellFormed] using hcol
  · split_ifs at h
    split at h
    · next hcell =>
      cases h
      obtain ⟨row, col, rfl, hcol⟩ := cellForm_eq_some hcell
      simpa [Instr.wellFormed] using hcol
    · cases h
  · cases h

/-- The words of a line are the words of the commands it expands to. -/
theorem assembleLine_eq_some {line : List Char} {ws : List Word} (h : assembleLine line = some ws) :
    ∃ is : List Instr, ws = is.map encode ∧ ∀ i ∈ is, i.wellFormed = true := by
  unfold assembleLine at h
  dsimp only at h
  split at h
  · cases h
    exact ⟨[], rfl, by simp⟩
  split at h
  · obtain ⟨is, hexpand, rfl⟩ := Option.map_eq_some_iff.mp h
    exact ⟨is, rfl, expand_wellFormed hexpand⟩
  · cases h

/-- Settles O60: the words are those of well-formed commands, which the decoder reads back. -/
theorem assemblerEmitsLegalWords : Obligations.AssemblerEmitsLegalWords := by
  unfold Obligations.AssemblerEmitsLegalWords
  intro line ws h w hw
  obtain ⟨is, rfl, hwf⟩ := assembleLine_eq_some h
  obtain ⟨i, hi, rfl⟩ := List.mem_map.mp hw
  exact ⟨i, decode_encode (hwf i hi), rfl, hwf i hi⟩

end Sys2Proof.Machine
end

section
/-! UPDATE and the three commands it stands for (30_encoding R82, 42_effect_control R156). Between them the split commands
complete, so their advance starts where the UPDATE's does but with the command port idle. -/

namespace Sys2Proof.Machine

/-- `idle` is the outcome of the same part with the command port idle: it ends early with a fault or busy, or goes on to the
same state up to `complete`. -/
def Flow.AgreesWith (f idle : Flow) : Prop :=
  idle.Sat (fun t => ∃ u, f = .go u ∧ complete u = t) fun t => t.fault = true ∨ t.busy = true

/-- A part of a command neither reads STATUS.BUSY and the held word nor writes them, short of an early end. -/
def PortBlind (part : State → Flow) : Prop := ∀ s : State, (part s).AgreesWith (part (complete s))

theorem portBlind_go {g : State → State} (h : ∀ s, complete (g s) = g (complete s)) : PortBlind fun s => .go (g s) :=
  fun s => ⟨g s, rfl, h s⟩

theorem PortBlind.comp {part : State → Flow} (hp : PortBlind part) {g : State → State}
    (h : ∀ s, complete (g s) = g (complete s)) : PortBlind fun s => part (g s) := by
  intro s
  dsimp only
  rw [← h]
  exact hp (g s)

theorem PortBlind.andThen {part next : State → Flow} (hp : PortBlind part) (hn : PortBlind next) :
    PortBlind fun s => (part s).andThen next := by
  intro s
  refine Flow.Sat.andThen (hp s) ?_
  rintro t ⟨u, hu, rfl⟩
  dsimp only
  rw [hu]
  exact hn u

theorem PortBlind.loop {α : Type} {part : α → State → Flow} (hp : ∀ a, PortBlind (part a)) (l : List α) :
    PortBlind (Flow.loop part l) := by
  induction l with
  | nil => exact portBlind_go fun _ => rfl
  | cons a l ih => exact (hp a).andThen ih

theorem PortBlind.times {part : State → Flow} (hp : PortBlind part) (n : Nat) : PortBlind (Flow.times part n) := by
  induction n with
  | zero => exact portBlind_go fun _ => rfl
  | succ n ih => exact hp.andThen ih

/-- A draw that does not stall or fault gets the same answer whatever the command port holds. -/
theorem portBlind_withDraw (lo : Byte) (hi : BitVec 9) {rest : Byte → State → Flow} (hr : ∀ v, PortBlind (rest v)) :
    PortBlind fun s => withDraw lo hi s rest := by
  intro s
  dsimp only
  rcases withDraw_cases lo hi (complete s) rest with ⟨-, h⟩ | ⟨v, -, -, h⟩ | ⟨v, hreply, hv, h⟩ <;> rw [h]
  · exact .inr rfl
  · exact .inl rfl
  · have hreply' : s.replyAt 0 = .ack v := (nextReply_eq_replyAt s).symm.trans hreply
    rw [withDraw_inRange rest hreply' hv]
    exact hr v (s.popRng.recordDraw ⟨lo, hi, v⟩)

theorem portBlind_advanceFire (p : Config.Parameters) : PortBlind (advanceFire p) := by
  have hseed (c : Col) : PortBlind (seedColumn p c) := portBlind_withDraw _ _ fun _ => portBlind_go fun _ => rfl
  exact (PortBlind.loop hseed cols).comp fun _ => rfl

theorem portBlind_advanceRain (p : Config.Parameters) : PortBlind (advanceRain p) := by
  have hattempt : PortBlind attempt :=
    portBlind_withDraw _ _ fun _ => portBlind_withDraw _ _ fun _ => portBlind_go fun _ => rfl
  exact (hattempt.times _).andThen (portBlind_go fun _ => rfl)

theorem portBlind_advanceStar (p : Config.Parameters) : PortBlind (advanceStar p) := by
  have hspawn : PortBlind (spawnStar p) :=
    portBlind_withDraw _ _ fun _ => portBlind_withDraw _ _ fun _ => portBlind_go fun _ => rfl
  have hafter (v : Byte) : PortBlind fun s => if v = 0 then spawnStar p s else .go s := by
    split
    · exact hspawn
    · exact portBlind_go fun _ => rfl
  exact (portBlind_withDraw _ _ hafter).comp (g := fun s => s.setSint (fadeStar p s.sint)) fun _ => rfl

theorem portBlind_advanceSweep (p : Config.Parameters) : PortBlind fun s => .go (advanceSweep p s) :=
  portBlind_go fun _ => rfl

/-- An outcome that completes with the command port idle is the outcome within a longer command. -/
theorem Flow.AgreesWith.final_eq {f idle : Flow} (h : f.AgreesWith idle) (hf : idle.final.fault = false)
    (hb : idle.final.busy = false) : f.final = idle.final := by
  cases idle with
  | go t =>
    obtain ⟨u, rfl, rfl⟩ := h
    rfl
  | halt t =>
    rcases h with h | h
    · exact absurd hf (by simp [h])
    · exact absurd hb (by simp [h])

/-- A pacing wait that starts with PACE_CNT idle changes nothing (42_effect_control R155). -/
theorem pace_of_idle (p : Config.Parameters) (fps : Fps) {s : State} (h : s.paceCnt = none) : pace p fps s = s := by
  change { s with paceCnt := none } = s
  rw [← h]

/-- A render, a frame transfer and an advance issued back to back leave what the UPDATE of them leaves, where the sink
takes the frame and the advance completes (R82, R156). -/
theorem update_final_eq_split (p : Config.Parameters) (fps : Fps) {colour : Row → Col → Colour}
    {render : State → State} {advance : State → Flow} {s t : State} (hrender : render s = renderWith colour s)
    (hadvance : PortBlind advance) (hpace : s.paceCnt = none) (hsink : s.nextSink = .takesFrame)
    (hsplit : (advance (present fps (complete (render s))).final).final = t) (hf : t.fault = false)
    (hb : t.busy = false) : (update p fps render advance s).final = t := by
  have hall : (render s).fbAllValid = true := hrender ▸ fbAllValid_renderWith colour s
  have htakes : (render s).nextSink = .takesFrame := hrender ▸ hsink
  have hidle : (render s).paceCnt = none := hrender ▸ hpace
  rw [present_takes (s := complete (render s)) hall htakes] at hsplit
  rw [update_takes advance hall htakes, pace_of_idle p fps (s := (render s).popSink.recordFrame _) hidle]
  subst hsplit
  exact (hadvance _).final_eq hf hb

/-- Settles O55: each effect's render, rate and advance are those of its UPDATE. -/
theorem updateEqualsSplitCommands : Obligations.UpdateEqualsSplitCommands := by
  unfold Obligations.UpdateEqualsSplitCommands
  intro s t u render present advance hmem hpace hsink hsplit hf hb
  simp only [execAll, exec_eq_bodyOf, Host.Outcome.next.injEq] at hsplit ⊢
  simp only [List.mem_cons, Prod.mk.injEq, List.not_mem_nil, or_false] at hmem
  rcases hmem with ⟨rfl, rfl, rfl, rfl⟩ | ⟨rfl, rfl, rfl, rfl⟩ | ⟨rfl, rfl, rfl, rfl⟩ | ⟨rfl, rfl, rfl, rfl⟩
  · exact update_final_eq_split _ _ (renderFire_eq hardware s) (portBlind_advanceFire _) hpace hsink hsplit hf hb
  · exact update_final_eq_split _ _ (renderRain_eq hardware s) (portBlind_advanceRain _) hpace hsink hsplit hf hb
  · exact update_final_eq_split _ _ (renderStar_eq s) (portBlind_advanceStar _) hpace hsink hsplit hf hb
  · exact update_final_eq_split _ _ (renderSweep_eq hardware s) (portBlind_advanceSweep _) hpace hsink hsplit hf hb

end Sys2Proof.Machine
end

section
/-! How a command ends, by what its body does (10_state R21, R38), and sequences of commands by their first (20_memory
R61). -/

namespace Sys2Proof.Machine

/-- A command whose body runs to its end completes there. -/
theorem exec_of_go {i : Instr} {s t : State} (h : bodyOf i s = .go t) : exec i s = .next (complete t) := by
  rw [exec_eq_bodyOf, h, Flow.final_go]

/-- A command whose body ends early leaves the state it ended in. -/
theorem exec_of_halt {i : Instr} {s t : State} (h : bodyOf i s = .halt t) : exec i s = .next t := by
  rw [exec_eq_bodyOf, h, Flow.final_halt]

theorem execAll_cons {i : Instr} {s t : State} (is : List Instr) (h : exec i s = .next t) :
    execAll (i :: is) s = execAll is t := by
  rw [execAll, h]

theorem execAll_singleton {i : Instr} {s t : State} (h : exec i s = .next t) : execAll [i] s = .next t := by
  rw [execAll_cons [] h, execAll]

/-- The wrapping sum of R11 is the sum of bytes. -/
theorem wrapAdd8_eq_add (a b : Byte) : wrapAdd8 a b = a + b :=
  BitVec.eq_of_toNat_eq (by simp [wrapAdd8])

/-- The counter of this hardware steps by 1 (R233). -/
theorem advanceSweep_eq (s : State) : advanceSweep hardware s = s.setSweep (s.sweep + 1) :=
  congrArg s.setSweep (wrapAdd8_eq_add s.sweep 1)

theorem exec_ldc (v : Colour) (s : State) : exec (.ldc v) s = .next (complete (s.setCreg v)) := rfl

/-- Settles O17: each body is one write of one register; the sweep's wrapping increment is the sum of bytes. -/
theorem registerCommandsComplete : Obligations.RegisterCommandsComplete := by
  unfold Obligations.RegisterCommandsComplete
  intro s v
  refine ⟨rfl, exec_ldc v s, rfl, rfl, rfl, ?_⟩
  exact exec_of_go (i := .advanceSweep) (congrArg Flow.go (advanceSweep_eq s))

end Sys2Proof.Machine
end

section
/-! SET and GET: the one cell of their fields (40_frame_buffer R104, R105, 60_exceptions R251). -/

namespace Sys2Proof.Machine

/-- Different fields name different cells (R50, R75). -/
theorem fieldIndex_inj {r c r' c' : BitVec 4} : fieldIndex r c = fieldIndex r' c' ↔ r = r' ∧ c = c' := by
  constructor
  · intro h
    unfold fieldIndex at h
    exact ⟨by bv_omega, by bv_omega⟩
  · rintro ⟨rfl, rfl⟩
    rfl

section
variable {row col : BitVec 4}

theorem atCell_of_legal (access : Nat → State → Flow) (s : State) (h : col.toNat < 14) :
    atCell row col access s = access (fieldIndex row col) s := by
  rw [atCell, if_pos (legalCol_iff.mpr h)]

theorem atCell_of_illegal (access : Nat → State → Flow) (s : State) (h : 14 ≤ col.toNat) :
    atCell row col access s = .halt (faultEntry .coordRange s) := by
  have hcol : ¬ legalCol col = true := mt legalCol_iff.mp (Nat.not_lt.mpr h)
  rw [atCell, if_neg hcol]

/-- SET of a cell of the grid writes CREG into it (R104). -/
theorem exec_set (s : State) (h : col.toNat < 14) :
    exec (.set row col) s = .next (complete (s.setFb (Memory.write s.fb (fieldIndex row col) s.creg))) :=
  exec_of_go (atCell_of_legal setCell s h)

/-- GET of a written cell loads it (R105). -/
theorem exec_get {s : State} {v : Colour} (h : col.toNat < 14)
    (hread : Memory.read s.fb (fieldIndex row col) = some v) :
    exec (.get row col) s = .next (complete (s.setCreg v)) := by
  have hcell : getCell (fieldIndex row col) s = .go (s.setCreg v) := by rw [getCell, hread]
  exact exec_of_go ((atCell_of_legal getCell s h).trans hcell)

end

/-- Settles O20: the read of the cell is the colour GET loads. -/
theorem getLoadsOneCell : Obligations.GetLoadsOneCell := by
  unfold Obligations.GetLoadsOneCell
  exact fun s row col v hcol hread => exec_get hcol hread

/-- Settles O19: SET is one write of the buffer, and either command checks its column before its access. -/
theorem setWritesOneCell : Obligations.SetWritesOneCell := by
  unfold Obligations.SetWritesOneCell
  constructor
  · intro s row col hcol
    exact ⟨_, exec_set s hcol, fun a => Memory.read_write s.fb (fieldIndex row col) a s.creg⟩
  · intro s row col hcol
    exact ⟨exec_of_halt (atCell_of_illegal setCell s hcol), exec_of_halt (atCell_of_illegal getCell s hcol)⟩

/-- SET and then GET, CREG loaded before each: CREG ends as what the buffer after SET's write holds in GET's cell. -/
theorem execAll_set_get {s : State} {r c r' c' : BitVec 4} {v x : Colour} (u : Colour) (hc : c.toNat < 14)
    (hc' : c'.toNat < 14)
    (hread : Memory.read (Memory.write s.fb (fieldIndex r c) v) (fieldIndex r' c') = some x) :
    ∃ t : State, execAll [.ldc v, .set r c, .ldc u, .get r' c'] s = .next t ∧ t.creg = x := by
  have hrun := calc execAll [.ldc v, .set r c, .ldc u, .get r' c'] s
    _ = execAll [.set r c, .ldc u, .get r' c'] _ := execAll_cons _ (exec_ldc v s)
    _ = execAll [.ldc u, .get r' c'] _ := execAll_cons _ (exec_set _ hc)
    _ = execAll [.get r' c'] _ := execAll_cons _ (exec_ldc u _)
    _ = .next _ := execAll_singleton (exec_get hc' hread)
  exact ⟨_, hrun, rfl⟩

/-- Settles O21: a read of the cell SET wrote gives the colour written, a read of another the colour it held. -/
theorem setThenGetReturnsColour : Obligations.SetThenGetReturnsColour := by
  unfold Obligations.SetThenGetReturnsColour
  intro s r c r' c' v u x hc hc'
  refine ⟨execAll_set_get u hc hc (Memory.read_write_same _ _ v), fun hne hread => ?_⟩
  have hcells : fieldIndex r' c' ≠ fieldIndex r c := fun h =>
    hne (Prod.ext_iff.mpr (fieldIndex_inj.mp h.symm))
  exact execAll_set_get u hc hc' ((Memory.read_write_other s.fb v hcells).trans hread)

end Sys2Proof.Machine
end

section
/-! FILL and RENDER: a buffer with every cell written, and the colours of the four effects (40_frame_buffer R103, R106). -/

namespace Sys2Proof.Machine

/-- The fill of R106 leaves the buffer rendered. -/
theorem rendered_fillFrom (s : State) (colour : Row → Col → Colour) : Rendered s colour (fillFrom colour s.fb) :=
  ⟨read_fillFrom_idx colour s.fb, fun a ha => by rw [read_fillFrom, dif_neg (Nat.not_lt.mpr ha)]⟩

section
variable {s : State} {colour : Row → Col → Colour} {m : Memory}

theorem Rendered.read_cell (h : Rendered s colour m) (k : Cell) :
    Memory.read m k.val = some (colour (rowOf k) (colOf k)) := by
  simpa using h.1 (rowOf k) (colOf k)

theorem Rendered.congr {colour' : Row → Col → Colour} (h : Rendered s colour m)
    (heq : ∀ r c, colour r c = colour' r c) : Rendered s colour' m :=
  ⟨fun r c => (h.1 r c).trans (congrArg some (heq r c)), h.2⟩

theorem Rendered.fbAllValid (h : Rendered s colour m) : ({ s with fb := m } : State).fbAllValid = true :=
  (fbAllValid_iff _).mpr fun k hk => ⟨_, h.read_cell ⟨k, hk⟩⟩

end

/-- Settles O18: FILL is the fill whose colour is CREG in every cell. -/
theorem fillWritesEveryCell : Obligations.FillWritesEveryCell := by
  unfold Obligations.FillWritesEveryCell
  intro s
  have hfill := rendered_fillFrom s fun _ _ => s.creg
  exact ⟨_, rfl, fun a ha => hfill.read_cell ⟨a, ha⟩, hfill.2, hfill.fbAllValid⟩

theorem rgb_toNat (r g b : Byte) : (rgb r g b).toNat = (r.toNat * 256 + g.toNat) * 256 + b.toNat := by
  rw [rgb, BitVec.toNat_append, BitVec.toNat_append, ← Nat.shiftLeft_add_eq_or_of_lt b.isLt,
    ← Nat.shiftLeft_add_eq_or_of_lt g.isLt, Nat.shiftLeft_eq, Nat.shiftLeft_eq]

/-- One byte on all three channels (R210). -/
theorem rgb_grey (i : Byte) : rgb i i i = BitVec.ofNat 24 (i.toNat * 0x010101) := by
  apply BitVec.eq_of_toNat_eq
  have hi := i.isLt
  rw [rgb_toNat, BitVec.toNat_ofNat]
  omega

/-- An eighth of a byte is its shift by three. -/
theorem ofNat_div_eight (i : Byte) : BitVec.ofNat 8 (i.toNat / 8) = i >>> 3 := by
  apply BitVec.eq_of_toNat_eq
  have hi := i.isLt
  rw [BitVec.toNat_ofNat, BitVec.toNat_ushiftRight, Nat.shiftRight_eq_div_pow]
  omega

/-- RAIN_COLOUR with its eighths as shifts (R191). -/
theorem rainColour_eq_shift (i : Byte) :
    rainColour i = rgb (i >>> 3) (BitVec.ofNat 8 (3 * i.toNat / 4)) (i >>> 3) := by
  rw [rainColour, ofNat_div_eight]

/-- Settles O22: each RENDER is the fill with its effect's colour function. -/
theorem renderWritesEffectColours : Obligations.RenderWritesEffectColours := by
  unfold Obligations.RenderWritesEffectColours
  intro s
  have hfire := rendered_fillFrom s s.fireShown
  have hrain := rendered_fillFrom s s.rainShown
  have hstar := rendered_fillFrom s s.starShown
  have hsweep := rendered_fillFrom s s.sweepShown
  refine ⟨_, _, _, _, rfl, hfire, rfl, hrain.congr fun _ _ => rainColour_eq_shift _, rfl,
    hstar.congr fun _ _ => rgb_grey _, rfl, hsweep, ?_⟩
  simp only [List.forall_mem_cons]
  exact ⟨hfire.fbAllValid, hrain.fbAllValid, hstar.fbAllValid, hsweep.fbAllValid, List.forall_mem_nil _⟩

end Sys2Proof.Machine
end

section
/-! The frame transfer of the PRESENTs and the UPDATEs: the frame it delivers, and the beat it holds before a sink that
stops (40_frame_buffer R110 to R112, 42_effect_control R156). -/

namespace Sys2Proof.Machine

/-- Each PRESENT is the frame transfer at its rate (R113 to R116). -/
theorem bodyOf_present {i : Instr} {fps : Fps}
    (h : (i, fps) ∈ [(Instr.presentFire, (30 : Fps)), (.presentRain, 10), (.presentStar, 60), (.presentSweep, 2)]) :
    bodyOf i = present fps := by
  simp only [List.mem_cons, Prod.mk.injEq, List.not_mem_nil, or_false] at h
  rcases h with ⟨rfl, rfl⟩ | ⟨rfl, rfl⟩ | ⟨rfl, rfl⟩ | ⟨rfl, rfl⟩ <;> rfl

/-- Each UPDATE renders the colours it shows, at its rate, before its advance (R156 to R160). -/
theorem bodyOf_update {s : State} {i : Instr} {fps : Fps} {colour : Row → Col → Colour}
    (h : (i, fps, colour) ∈ s.updateForms) :
    ∃ render advance, bodyOf i s = update hardware fps render advance s ∧ render s = renderWith colour s := by
  simp only [State.updateForms, List.mem_cons, Prod.mk.injEq, List.not_mem_nil, or_false] at h
  rcases h with ⟨rfl, rfl, rfl⟩ | ⟨rfl, rfl, rfl⟩ | ⟨rfl, rfl, rfl⟩ | ⟨rfl, rfl, rfl⟩
  · exact ⟨renderFire hardware, advanceFire hardware, rfl, rfl⟩
  · exact ⟨renderRain hardware, advanceRain hardware, rfl, rfl⟩
  · exact ⟨renderStar, advanceStar hardware, rfl, rfl⟩
  · exact ⟨renderSweep hardware, fun s => .go (advanceSweep hardware s), rfl, rfl⟩

/-- Settles O23: the transfer goes on with the frame of FB's colours in the history. -/
theorem presentDeliversFrame : Obligations.PresentDeliversFrame := by
  unfold Obligations.PresentDeliversFrame
  intro s i fps hi hall hsink
  have hbody := (congrFun (bodyOf_present hi) s).trans (present_takes hall hsink)
  exact ⟨⟨fps, frameCells s.fb⟩, exec_of_go hbody, rfl, entry_frameCells hall⟩

/-- A frame transfer to a sink that never takes beat k (R111). -/
theorem present_stops {fps : Fps} {s : State} {k : Cell} (h : s.fbAllValid = true) (h' : s.nextSink = .stopsAt k) :
    present fps s = .halt (stall (.beat fps k) s.popSink) := by
  simp [present, h, h']

/-- An UPDATE whose sink never takes beat k stalls there, its advance not begun (R111, R156). -/
theorem update_stops {p : Config.Parameters} {fps : Fps} {render : State → State} (advance : State → Flow) {s : State}
    {k : Cell} (h : (render s).fbAllValid = true) (h' : (render s).nextSink = .stopsAt k) :
    update p fps render advance s = .halt (stall (.beat fps k) (render s).popSink) := by
  rw [update, present_stops h h', Flow.andThen_halt]

/-- The ports of a block that offers beat k with colour c: the beats before it are taken and no command is (R21, R22). -/
def State.OffersBeat (t : State) (fps : Fps) (k : Cell) (c : Colour) : Prop :=
  t.sinkOffer = some ⟨k, c, decide (k.val = 223), fps⟩ ∧ t.beatsTaken.length = k.val ∧ t.cmdReady = false

/-- A stalled transfer offers the colour its cell holds. -/
theorem offersBeat_stall {s : State} {k : Cell} {c : Colour} (fps : Fps) (hread : Memory.read s.fb k.val = some c) :
    (stall (.beat fps k) s).OffersBeat fps k c := by
  refine ⟨?_, ?_, rfl⟩
  · have hcell : entry (frameCells s.fb) k = c := by simp [frameCells, hread]
    exact hcell ▸ rfl
  · simp [State.beatsTaken, linear]

/-- Settles O25: the transfer stalls on beat k; the cell's colour there is FB's in a PRESENT, the rendered one in an
UPDATE. -/
theorem stalledSinkHoldsBeat : Obligations.StalledSinkHoldsBeat := by
  unfold Obligations.StalledSinkHoldsBeat
  constructor
  · intro s i fps k hi hall hsink
    have hbody := (congrFun (bodyOf_present hi) s).trans (present_stops hall hsink)
    have hread := entry_frameCells hall k
    exact ⟨_, _, exec_of_halt hbody, rfl, hread, offersBeat_stall (s := s.popSink) fps hread⟩
  · intro s i fps colour k hi hsink
    obtain ⟨render, advance, hbody, hrender⟩ := bodyOf_update hi
    have hall : (render s).fbAllValid = true := hrender ▸ fbAllValid_renderWith colour s
    have hstops : (render s).nextSink = .stopsAt k := hrender ▸ hsink
    rw [update_stops advance hall hstops, hrender] at hbody
    have hm := rendered_fillFrom s colour
    exact ⟨_, _, exec_of_halt hbody, hm, rfl, offersBeat_stall (s := (renderWith colour s).popSink) fps (hm.read_cell k)⟩

end Sys2Proof.Machine
end

section
/-! BLEND channel by channel on naturals, and the bounds that its roundings keep (41_interpolator R132, R135). -/

namespace Sys2Proof.Machine

@[simp] theorem red_rgb (r g b : Byte) : red (rgb r g b) = r := by
  apply BitVec.eq_of_toNat_eq
  rw [red, BitVec.extractLsb'_toNat, rgb_toNat, Nat.shiftRight_eq_div_pow]
  omega

@[simp] theorem green_rgb (r g b : Byte) : green (rgb r g b) = g := by
  apply BitVec.eq_of_toNat_eq
  rw [green, BitVec.extractLsb'_toNat, rgb_toNat, Nat.shiftRight_eq_div_pow]
  omega

@[simp] theorem blue_rgb (r g b : Byte) : blue (rgb r g b) = b := by
  rw [blue, rgb, BitVec.extractLsb'_append_eq_right]

/-- BLEND treats the three channels alike. -/
theorem channel_blend {ch : Colour → Byte} (hch : ch ∈ [red, green, blue]) (c1 c2 : Colour) (f : BitVec 4) :
    ch (blend c1 c2 f) = blendChannel (ch c1) (ch c2) f := by
  simp only [List.mem_cons, List.not_mem_nil, or_false] at hch
  rcases hch with rfl | rfl | rfl
  · exact red_rgb _ _ _
  · exact green_rgb _ _ _
  · exact blue_rgb _ _ _

/-- The scaled byte fits a byte, so nothing is cut off (R11). -/
theorem toNat_scale8 (a f : Byte) : (scale8 a f).toNat = a.toNat * (f.toNat + 1) / 256 := by
  have hle : a.toNat * (f.toNat + 1) ≤ a.toNat * 256 := Nat.mul_le_mul_left _ f.isLt
  rw [scale8, BitVec.toNat_ofNat]
  have ha := a.isLt
  omega

/-- The two weights add up to 257 of 256, so of two bytes the floors never add up to more than the larger. -/
theorem weightedSum_le_max {a b g : ℕ} (ha : a < 256) (hb : b < 256) (hg : g ≤ 256) :
    a * (256 - g) / 256 + b * (g + 1) / 256 ≤ max a b := by
  have hle : a * (256 - g) + b * (g + 1) ≤ max a b * 257 := calc
    _ ≤ max a b * (256 - g) + max a b * (g + 1) := by gcongr <;> simp
    _ = max a b * 257 := by rw [← Nat.mul_add]; congr 1; omega
  omega

/-- Each of the two floors loses less than 1, so together they lose at most 1 of the smaller. -/
theorem min_sub_one_le_weightedSum {a b g : ℕ} (hg : g ≤ 256) :
    min a b - 1 ≤ a * (256 - g) / 256 + b * (g + 1) / 256 := by
  have hle : min a b * 257 ≤ a * (256 - g) + b * (g + 1) := calc
    _ = min a b * (256 - g) + min a b * (g + 1) := by rw [← Nat.mul_add]; congr 1; omega
    _ ≤ a * (256 - g) + b * (g + 1) := by gcongr <;> simp
  omega

/-- A blended channel on naturals: neither weight nor the sum overflows (R132). -/
theorem toNat_blendChannel (a b : Byte) (f : BitVec 4) :
    (blendChannel a b f).toNat =
      a.toNat * (256 - 16 * f.toNat) / 256 + b.toNat * (16 * f.toNat + 1) / 256 := by
  have hf := f.isLt
  have hb2 : 16 * f.toNat % 256 = 16 * f.toNat := Nat.mod_eq_of_lt (by omega)
  have hb1 : (255 - 16 * f.toNat) % 256 + 1 = 256 - 16 * f.toNat := by omega
  have hsum := weightedSum_le_max a.isLt b.isLt (g := 16 * f.toNat) (by omega)
  have hmax : max a.toNat b.toNat < 256 := max_lt a.isLt b.isLt
  simp only [blendChannel, BitVec.toNat_add, toNat_scale8, BitVec.toNat_ofNat, Nat.reducePow, hb2, hb1]
  exact Nat.mod_eq_of_lt (hsum.trans_lt hmax)

/-- Settles O34: both bounds are the ones of the weighted sum on naturals. -/
theorem blendStaysBetweenStops : Obligations.BlendStaysBetweenStops := by
  unfold Obligations.BlendStaysBetweenStops
  intro c1 c2 f _ ch hch
  have hg : 16 * f.toNat ≤ 256 := by omega
  rw [channel_blend hch, toNat_blendChannel]
  exact ⟨min_sub_one_le_weightedSum hg, weightedSum_le_max (ch c1).isLt (ch c2).isLt hg⟩

end Sys2Proof.Machine
end

section
/-! The interpolator on and off the stops (41_interpolator R133, R134), and its two commands (R136, R137). -/

namespace Sys2Proof.Machine

@[simp] theorem toNat_stopBelow (i : Byte) : (stopBelow i).toNat = i.toNat / 16 := by
  have hi := i.isLt
  rw [stopBelow, BitVec.extractLsb'_toNat, Nat.shiftRight_eq_div_pow]
  omega

@[simp] theorem toNat_fraction (i : Byte) : (fraction i).toNat = i.toNat % 16 := by
  rw [fraction, BitVec.extractLsb'_toNat, Nat.shiftRight_zero]

theorem fraction_eq_zero_iff {i : Byte} : fraction i = 0 ↔ i.toNat % 16 = 0 := by
  rw [← BitVec.toNat_inj, toNat_fraction]
  rfl

theorem stop_eq_getElem (P : Palette) {s : BitVec 4} {n : ℕ} (h : n = s.toNat) :
    stop P s = P[n]'(h ▸ s.isLt) := by
  subst h
  rfl

/-- On a stop the interpolator reads it (R133, R134). -/
theorem interp_of_fraction_eq_zero (P : Palette) {i : Byte} (h : fraction i = 0) :
    interp P i = stop P (stopBelow i) := by
  simp only [interp, interpOf, interpWith, if_pos h]

/-- Off the stops this hardware blends, stop 15 toward stop 0 too (R133). -/
theorem interp_of_fraction_ne_zero (P : Palette) {i : Byte} (h : fraction i ≠ 0) :
    interp P i = blend (stop P (stopBelow i)) (stop P (stopBelow i + 1)) (fraction i) := by
  have hwrap : ¬(stopBelow i = 15 ∧ hardware.paletteWrap = false) := by
    simp [Config.paletteWrap]
  simp only [interp, interpOf, interpWith, if_neg h, if_neg hwrap, hardware_blend]

/-- Settles O33: off the stops the interpolator is BLEND of the two stops, each channel of which is exact on naturals. -/
theorem interpBlendsBracketingStops : Obligations.InterpBlendsBracketingStops := by
  unfold Obligations.InterpBlendsBracketingStops
  intro P i hi ch hch
  have hbelow := stop_eq_getElem P (toNat_stopBelow i).symm
  have habove : (i.toNat / 16 + 1) % 16 = (stopBelow i + 1).toNat := by
    rw [BitVec.toNat_add, toNat_stopBelow]
    rfl
  rw [interp_of_fraction_ne_zero P (mt fraction_eq_zero_iff.mp hi), channel_blend hch, toNat_blendChannel,
    toNat_fraction, hbelow, stop_eq_getElem P habove]

/-- Settles O32: the index 16 s has fraction 0 and s as the stop below. -/
theorem interpExactOnStops : Obligations.InterpExactOnStops := by
  unfold Obligations.InterpExactOnStops
  intro P s
  have hs := s.isLt
  have hi : (BitVec.ofNat 8 (16 * s.val)).toNat = 16 * s.val := Nat.mod_eq_of_lt (by omega)
  rw [interp_of_fraction_eq_zero P (fraction_eq_zero_iff.mpr (by omega))]
  exact stop_eq_getElem P (by rw [toNat_stopBelow]; omega)

/-- Settles O35: each body is one write of CREG; the three indices of R137 are evaluated, the first a stop. -/
theorem interpCommandsLoadColour : Obligations.InterpCommandsLoadColour := by
  unfold Obligations.InterpCommandsLoadColour
  refine ⟨fun s i => ⟨?_, ?_⟩, interpExactOnStops Config.huePalette 0, ?_, ?_⟩
  · exact exec_of_go (i := .interpFire i) rfl
  · exact exec_of_go (i := .interpHue i) rfl
  · decide
  · decide

end Sys2Proof.Machine
end

section
/-! UPDATE to a sink that takes the frame: the state its advance starts from (42_effect_control R153, R156), and the one
whose advance cannot fail (R160). -/

namespace Sys2Proof.Machine

/-- The frame of a rendered buffer delivers the rendered colours (R112). -/
theorem Rendered.delivers {s : State} {colour : Row → Col → Colour} {m : Memory} (h : Rendered s colour m) (fps : Fps) :
    Delivers ⟨fps, frameCells m⟩ fps colour :=
  ⟨rfl, fun r c => by simp [frameCells, h.1 r c]⟩

/-- Where the sink takes the frame, an UPDATE is its advance from the state that has presented the rendered colours. -/
theorem update_presents (p : Config.Parameters) (fps : Fps) {colour : Row → Col → Colour} {render : State → State}
    (advance : State → Flow) {s : State} (hrender : render s = renderWith colour s) (hsink : s.nextSink = .takesFrame) :
    ∃ u, Presented s u fps colour ∧ update p fps render advance s = advance u := by
  have hall : (render s).fbAllValid = true := hrender ▸ fbAllValid_renderWith colour s
  have htakes : (render s).nextSink = .takesFrame := hrender ▸ hsink
  have hm := rendered_fillFrom s colour
  refine ⟨_, ⟨_, _, hm, hm.delivers fps, rfl⟩, ?_⟩
  rw [update_takes advance hall htakes, hrender]
  rfl

/-- Settles O54: the advance of the presented state is the increment of the counter. -/
theorem updateSweepResult : Obligations.UpdateSweepResult := by
  unfold Obligations.UpdateSweepResult
  intro s hsink
  obtain ⟨u, ⟨m, f, hm, hf, rfl⟩, hbody⟩ := update_presents hardware hardware.fpsSweep
    (fun s => .go (advanceSweep hardware s)) (renderSweep_eq hardware s) hsink
  refine ⟨m, f, hm, hf, ?_⟩
  rw [advanceSweep_eq] at hbody
  exact exec_of_go (i := .updateSweep) hbody

end Sys2Proof.Machine
end

section
/-! Parts of a command one after another: a repetition cut in two, and draws whatever their bounds, as the state with these
draws made and the next draw from it (10_state R23, R39). -/

namespace Sys2Proof.Machine

/-- A repetition cut in two. -/
theorem Flow.times_add (part : State → Flow) (m n : Nat) (s : State) :
    Flow.times part (m + n) s = (Flow.times part m s).andThen (Flow.times part n) := by
  induction m generalizing s with
  | zero => rw [Nat.zero_add]; rfl
  | succ m ih =>
    rw [Nat.succ_add]
    simp only [Flow.times]
    cases part s with
    | go t => exact ih t
    | halt t => rfl

theorem Flow.times_one (part : State → Flow) (s : State) : Flow.times part 1 s = part s := by
  simp only [Flow.times]
  cases part s <;> rfl

theorem inRange_eq_false {lo : Byte} {hi : BitVec 9} {v : Byte} (h : v.toNat < lo.toNat ∨ hi.toNat ≤ v.toNat) :
    inRange lo hi v = false := by
  rw [Bool.eq_false_iff, Ne, inRange_eq_true_iff]
  omega

/-- The state with these draws made, the next n replies. -/
def State.withDraws (s : State) (n : Nat) (made : List Draw) : State :=
  { s with rngIn := s.rngIn.drop n, draws := s.draws ++ made }

theorem inRange_of_answered {s : State} {n : Nat} {lo : Byte} {hi : BitVec 9} (h : s.answered n lo hi = true) :
    inRange lo hi (s.answerAt n) = true := by
  unfold State.answered at h
  unfold State.answerAt
  cases hr : s.replyAt n with
  | never => simp [hr] at h
  | ack v => simpa [hr] using h

theorem toNat_lt_of_answered {s : State} {n : Nat} {lo : Byte} {hi : BitVec 9} (h : s.answered n lo hi = true) :
    (s.answerAt n).toNat < hi.toNat :=
  (inRange_eq_true_iff.mp (inRange_of_answered h)).2

section
variable {s : State} {n : Nat} {made : List Draw} {lo : Byte} {hi : BitVec 9} (rest : Byte → State → Flow)

theorem replyAt_withDraws (hlen : made.length = n) (j : Nat) : (s.withDraws n made).replyAt j = s.replyAt (n + j) := by
  subst hlen
  simp [State.replyAt, State.withDraws, Nat.add_assoc]

/-- These draws and one more. -/
theorem withDraws_afterDraw (d : Draw) :
    (s.withDraws n made).popRng.recordDraw d = s.withDraws (n + 1) (made ++ [d]) := by
  simp [State.withDraws, State.popRng, State.recordDraw]

/-- After n draws, a draw answered in range goes on with the n-th answer. -/
theorem withDraw_of_answered (hlen : made.length = n) (h : s.answered n lo hi = true) :
    withDraw lo hi (s.withDraws n made) rest =
      rest (s.answerAt n) (s.withDraws (n + 1) (made ++ [⟨lo, hi, s.answerAt n⟩])) := by
  have hreply := replyAt_withDraws (s := s) hlen 0
  have hans : (s.withDraws n made).answerAt 0 = s.answerAt n := by simp only [State.answerAt, hreply, Nat.add_zero]
  have hok : (s.withDraws n made).answered 0 lo hi = true := by simpa only [State.answered, hreply, Nat.add_zero] using h
  rw [withDraw_answered rest hok, hans, withDraws_afterDraw]

/-- After n draws, a draw answered out of range raises RNG_RANGE (60_exceptions R253). -/
theorem withDraw_of_outOfRange (hlen : made.length = n) {v : Byte} (h : s.replyAt n = .ack v)
    (hv : inRange lo hi v = false) :
    withDraw lo hi (s.withDraws n made) rest =
      .halt (s.stoppedAtDraw (n + 1) (made ++ [⟨lo, hi, s.answerAt n⟩])) := by
  have hans : s.answerAt n = v := by simp only [State.answerAt, h]
  rw [withDraw_outOfRange rest ((replyAt_withDraws hlen 0).trans h) hv, withDraws_afterDraw, hans]
  rfl

/-- After n draws, a draw that is not answered in range ends the command, the intensities of Starfield as they were. -/
theorem withDraw_of_not_answered (hlen : made.length = n) (h : s.answered n lo hi = false) :
    ∃ t, withDraw lo hi (s.withDraws n made) rest = .halt t ∧ t.sint = s.sint := by
  have hreply := replyAt_withDraws (s := s) hlen 0
  unfold State.answered at h
  cases hr : s.replyAt n with
  | never => exact ⟨_, withDraw_never rest (hreply.trans hr), rfl⟩
  | ack v =>
    simp only [hr] at h
    exact ⟨_, withDraw_outOfRange rest (hreply.trans hr) h, rfl⟩

end

theorem drawsMade_succ_last (s : State) (n : Nat) (lo : Byte) (hi : BitVec 9) :
    s.drawsMade (n + 1) lo hi = s.drawsMade n lo hi ++ [⟨lo, hi, s.answerAt n⟩] := by
  simp [State.drawsMade, List.range_succ]

end Sys2Proof.Machine
end

section
/-! The columns in order. -/

namespace Sys2Proof.Machine

theorem pairwise_lt_cols : cols.Pairwise (· < ·) := by
  unfold cols
  exact List.pairwise_lt_finRange 14

theorem nodup_cols : cols.Nodup := pairwise_lt_cols.imp fun h => h.ne

@[simp] theorem mem_cols (c : Col) : c ∈ cols := by simp [cols]

@[simp] theorem length_cols : cols.length = 14 := by simp [cols]

@[simp] theorem getElem_cols (n : Nat) (hn : n < cols.length) : cols[n] = ⟨n, by simpa using hn⟩ := by
  simp [cols]

theorem mem_take_cols {c : Col} {n : Nat} : c ∈ cols.take n ↔ c.val < n := by
  simp only [List.mem_take_iff_getElem, getElem_cols, length_cols]
  constructor
  · rintro ⟨i, hi, rfl⟩
    exact (lt_min_iff.mp hi).1
  · exact fun h => ⟨c.val, lt_min h c.isLt, rfl⟩

/-- The columns before column n, column n, and those after it. -/
theorem cols_eq_append (n : Col) : cols = cols.take n.val ++ n :: cols.drop (n.val + 1) := by
  have hn : n.val < cols.length := by simp
  have hdrop : cols.drop n.val = n :: cols.drop (n.val + 1) := by
    rw [List.drop_eq_getElem_cons hn, getElem_cols]
  rw [← hdrop, List.take_append_drop]

end Sys2Proof.Machine
end

section
/-! Writes to an array cell by cell: a traversal that reads the array it is writing, and a loop that writes its draws. -/

namespace Sys2Proof.Machine

section
variable {α β : Type} {dst src : α → Cell} {f : β → β}

/-- A traversal leaves the cells it does not write. -/
theorem entry_foldl_inPlace_of_ne {l : List α} {k : Cell} (h : ∀ a ∈ l, k ≠ dst a) (b : Bank β) :
    entry (l.foldl (fun b a => put b (dst a) (f (entry b (src a)))) b) k = entry b k := by
  induction l generalizing b with
  | nil => rfl
  | cons a l ih =>
    obtain ⟨ha, hl⟩ := List.forall_mem_cons.mp h
    rw [List.foldl_cons, ih hl, entry_put_other _ _ ha]

/-- A traversal that comes to no cell again once it has written it, to read it or to write it, writes every cell from the
array as it was at the start: in place and at once are the same. -/
theorem entry_foldl_inPlace {l : List α} (hl : l.Pairwise fun a a' => src a' ≠ dst a ∧ dst a ≠ dst a') (b : Bank β)
    {a : α} (ha : a ∈ l) :
    entry (l.foldl (fun b a => put b (dst a) (f (entry b (src a)))) b) (dst a) = f (entry b (src a)) := by
  induction l generalizing b with
  | nil => exact absurd ha List.not_mem_nil
  | cons a₀ l ih =>
    obtain ⟨hhead, htail⟩ := List.pairwise_cons.mp hl
    rw [List.foldl_cons]
    rcases List.mem_cons.mp ha with rfl | ha
    · rw [entry_foldl_inPlace_of_ne fun a' ha' => (hhead a' ha').2, entry_put_same]
    · rw [ih htail _ ha, entry_put_other _ _ (hhead a ha).1]

end

section
variable {α β : Type} (F : FieldLens (Bank β)) {cell : α → Cell} (val : Byte → β) (s : State)

/-- A loop that writes its draws leaves the cells it does not come to. -/
theorem FieldLens.entry_folded_put_of_ne {l : List α} {k : Cell} (h : ∀ a ∈ l, k ≠ cell a) (j : Nat) (b : Bank β) :
    entry (F.folded (fun a v b => put b (cell a) (val v)) s l j b) k = entry b k := by
  induction l generalizing j b with
  | nil => rfl
  | cons a l ih =>
    obtain ⟨ha, hl⟩ := List.forall_mem_cons.mp h
    rw [FieldLens.folded, ih hl, entry_put_other _ _ ha]

/-- A loop that comes to different cells writes the i-th answer into the i-th. -/
theorem FieldLens.entry_folded_put {l : List α} (hl : l.Pairwise fun a a' => cell a ≠ cell a') (j : Nat) (b : Bank β)
    {i : Nat} (hi : i < l.length) :
    entry (F.folded (fun a v b => put b (cell a) (val v)) s l j b) (cell l[i]) = val (s.answerAt (j + i)) := by
  induction l generalizing j b i with
  | nil => exact absurd hi (Nat.not_lt_zero i)
  | cons a l ih =>
    obtain ⟨hhead, htail⟩ := List.pairwise_cons.mp hl
    cases i with
    | zero =>
      rw [FieldLens.folded, List.getElem_cons_zero, F.entry_folded_put_of_ne val s hhead, entry_put_same, Nat.add_zero]
    | succ i =>
      rw [FieldLens.folded, List.getElem_cons_succ, ih htail _ _ (Nat.lt_of_succ_lt_succ hi)]
      congr 2
      omega

end

end Sys2Proof.Machine
end

section
/-! The Fire engine: the rise and the seeds in closed form, and how its advance ends (43_fire R173, R175). -/

namespace Sys2Proof.Machine

/-- The cells the sweep of R173 writes, in its order, each as its column and the row below it. -/
def riseOrder : List (Fin 15 × Col) := rowsDown.flatMap fun below => cols.map fun c => (below, c)

theorem mem_riseOrder (below : Fin 15) (c : Col) : (below, c) ∈ riseOrder := by
  simp [riseOrder, rowsDown]

theorem riseSweep_eq_foldl (p : Config.Parameters) (heat : Bank Byte) :
    riseSweep p heat = riseOrder.foldl
      (fun h a => put h (idx a.1.succ a.2) (rise p (entry h (idx a.1.castSucc a.2)))) heat := by
  simp only [riseOrder, List.foldl_flatMap, List.foldl_map]
  rfl

/-- Going down the rows the sweep reads no cell it has written, and writes none twice (R287). -/
theorem pairwise_riseOrder : riseOrder.Pairwise fun a a' =>
    idx a'.1.castSucc a'.2 ≠ idx a.1.succ a.2 ∧ idx a.1.succ a.2 ≠ idx a'.1.succ a'.2 := by
  have hrows : rowsDown.Pairwise fun r r' => r' < r := by
    unfold rowsDown
    exact List.pairwise_reverse.mpr (List.pairwise_lt_finRange 15)
  simp only [riseOrder, List.pairwise_flatMap, List.pairwise_map, List.forall_mem_map, Ne, idx, Fin.mk.injEq,
    Fin.val_succ, Fin.val_castSucc]
  constructor
  · intro r _
    refine pairwise_lt_cols.imp fun h => ?_
    have hlt := Fin.lt_def.mp h
    omega
  · refine hrows.imp fun h c _ c' _ => ?_
    omega

/-- The sweep raises every row from the row below as it was (R175). -/
theorem entry_riseSweep_succ (p : Config.Parameters) (heat : Bank Byte) (below : Fin 15) (c : Col) :
    entry (riseSweep p heat) (idx below.succ c) = rise p (entry heat (idx below.castSucc c)) := by
  rw [riseSweep_eq_foldl]
  exact entry_foldl_inPlace (dst := fun a => idx a.1.succ a.2) pairwise_riseOrder heat (mem_riseOrder below c)

/-- The sweep leaves row 0 (R175). -/
theorem entry_riseSweep_zero (p : Config.Parameters) (heat : Bank Byte) (c : Col) :
    entry (riseSweep p heat) (idx 0 c) = entry heat (idx 0 c) := by
  rw [riseSweep_eq_foldl]
  have hrow : ∀ a ∈ riseOrder, idx 0 c ≠ idx a.1.succ a.2 := fun a _ h => Fin.succ_ne_zero a.1 (idx_inj.mp h).1.symm
  exact entry_foldl_inPlace_of_ne hrow heat

/-- The heat of an advance from `s` that has seeded the first n columns. -/
def State.seededHeat (s : State) (n : Nat) : Bank Byte :=
  heatField.folded (fun c v b => put b (idx 0 c) v) s (cols.take n) 0 (riseSweep hardware s.heat)

theorem entry_seededHeat_succ (s : State) (n : Nat) (below : Fin 15) (c : Col) :
    entry (s.seededHeat n) (idx below.succ c) = rise hardware (entry s.heat (idx below.castSucc c)) := by
  have hrow : ∀ a ∈ cols.take n, idx below.succ c ≠ idx 0 a :=
    fun a _ h => Fin.succ_ne_zero below (idx_inj.mp h).1
  exact (heatField.entry_folded_put_of_ne id s hrow 0 _).trans (entry_riseSweep_succ hardware s.heat below c)

theorem entry_seededHeat_zero (s : State) (n : Nat) (c : Col) :
    entry (s.seededHeat n) (idx 0 c) = if c.val < n then s.answerAt c.val else entry s.heat (idx 0 c) := by
  split
  · next hc =>
    have hcols : (cols.take n).Pairwise fun a a' => idx 0 a ≠ idx 0 a' :=
      (nodup_cols.sublist (List.take_sublist n cols)).imp fun h h' => h (idx_inj.mp h').2
    have hentry := heatField.entry_folded_put id s hcols 0 (riseSweep hardware s.heat) (i := c.val) (by simp [hc])
    simpa [State.seededHeat] using hentry
  · next hc =>
    have hcol : ∀ a ∈ cols.take n, idx 0 c ≠ idx 0 a :=
      fun a ha h => hc (mem_take_cols.mp ((idx_inj.mp h).2 ▸ ha))
    exact (heatField.entry_folded_put_of_ne id s hcol 0 _).trans (entry_riseSweep_zero hardware s.heat c)

/-- The two parts of R173 fix every cell. -/
theorem fireSeededTo_iff {s : State} {n : Nat} {h : Bank Byte} : FireSeededTo s n h ↔ h = s.seededHeat n := by
  constructor
  · rintro ⟨hzero, hsucc⟩
    refine bank_ext fun k => ?_
    rw [← idx_rowOf_colOf k]
    generalize rowOf k = r, colOf k = c
    cases r using Fin.cases with
    | zero => rw [hzero, entry_seededHeat_zero]
    | succ below => exact (hsucc below c).trans (entry_seededHeat_succ s n below c).symm
  · rintro rfl
    exact ⟨entry_seededHeat_zero s n, entry_seededHeat_succ s n⟩

/-- An advance with all 14 columns seeded is a whole one. -/
theorem fireAdvanced_iff {s : State} {h : Bank Byte} : FireAdvanced s h ↔ FireSeededTo s 14 h := by
  simp [FireAdvanced, FireSeededTo]

/-- The seeding loop starts from the risen heat, on which its draws do not depend. -/
theorem folded_setHeat (s : State) (n : Nat) :
    heatField.folded (fun c v b => put b (idx 0 c) v) (s.setHeat (riseSweep hardware s.heat)) (cols.take n) 0
      (heatField.get (s.setHeat (riseSweep hardware s.heat))) = s.seededHeat n :=
  heatField.folded_congr _ (s := s) (t := s.setHeat (riseSweep hardware s.heat)) _ (fun _ => rfl) _

/-- Answered in range, ADVANCE.FIRE makes its 14 draws and leaves the heat of R173. -/
theorem advanceFire_of_answered {s : State} {h : Bank Byte} (hh : FireAdvanced s h)
    (hans : ∀ j < 14, s.answered j 0x20 0x90 = true) :
    advanceFire hardware s = .go ((s.setHeat h).drawn 14 0x20 0x90) := by
  have hall : cols.take 14 = cols := List.take_of_length_le (by simp)
  have hloop := heatField.loop_answered 0x20 0x90 (fun c v b => put b (idx 0 c) v) (cols.take 14)
    (s.setHeat (riseSweep hardware s.heat)) fun j hj => hans j (by simpa using hj)
  rw [folded_setHeat, ← fireSeededTo_iff.mp (fireAdvanced_iff.mp hh), hall, length_cols] at hloop
  exact hloop

/-- The answer of draw n out of range, ADVANCE.FIRE stops there, column n and those after it not seeded. -/
theorem advanceFire_of_outOfRange {s : State} {n : Col} {v : Byte} {h : Bank Byte} (hh : FireSeededTo s n.val h)
    (hans : ∀ j < n.val, s.answered j 0x20 0x90 = true) (hreply : s.replyAt n.val = .ack v)
    (hout : inRange 0x20 0x90 v = false) :
    advanceFire hardware s = .halt
      (State.stoppedAtDraw { s with heat := h } (n.val + 1) (s.drawsMade (n.val + 1) 0x20 0x90)) := by
  have hlen : (cols.take n.val).length = n.val := by simp
  have hloop := heatField.loop_stops 0x20 0x90 (fun c v b => put b (idx 0 c) v) (cols.take n.val) n
    (cols.drop (n.val + 1)) (s.setHeat (riseSweep hardware s.heat)) v (by rw [hlen]; exact hans)
    (by rw [hlen]; exact hreply) hout
  rw [← cols_eq_append, folded_setHeat, ← fireSeededTo_iff.mp hh, hlen] at hloop
  exact hloop

/-- Settles O39: the heat is the one of the n lower columns seeded; UPDATE.FIRE's advance starts with the same heat and
the same replies to come. -/
theorem advanceFireStopsAtBadSeed : Obligations.AdvanceFireStopsAtBadSeed := by
  unfold Obligations.AdvanceFireStopsAtBadSeed
  intro s n v hans hreply hv
  have hout : inRange 0x20 0x90 v = false := inRange_eq_false hv
  have hh := fireSeededTo_iff.mpr (rfl : s.seededHeat n.val = _)
  refine ⟨_, hh, exec_of_halt (i := .advanceFire) (advanceFire_of_outOfRange hh hans hreply hout), fun hsink => ?_⟩
  obtain ⟨u, hu, hbody⟩ := update_presents hardware hardware.fpsFire (advanceFire hardware) (renderFire_eq hardware s) hsink
  refine ⟨u, hu, ?_⟩
  obtain ⟨m, f, -, -, rfl⟩ := hu
  exact exec_of_halt (i := .updateFire) (hbody.trans (advanceFire_of_outOfRange hh hans hreply hout))

/-- Settles O51: the advance of the presented state, whose heat and replies are those before the frame. -/
theorem updateFireResult : Obligations.UpdateFireResult := by
  unfold Obligations.UpdateFireResult
  intro s hsink hans
  obtain ⟨u, ⟨m, f, hm, hf, rfl⟩, hbody⟩ := update_presents hardware hardware.fpsFire (advanceFire hardware)
    (renderFire_eq hardware s) hsink
  have hh := fireAdvanced_iff.mpr (fireSeededTo_iff.mpr (rfl : s.seededHeat 14 = _))
  exact ⟨m, f, _, hm, hf, hh, exec_of_go (i := .updateFire) (hbody.trans (advanceFire_of_answered hh hans))⟩

end Sys2Proof.Machine
end

section
/-! The Rain engine: the attempts one after another, the rotation and the lighting cell by cell, and how its advance ends
(44_rain R194, R195). -/

namespace Sys2Proof.Machine

theorem movedHeads_succ (s : State) (n : Nat) :
    s.movedHeads (n + 1) =
      moveHead (s.movedHeads n) (cellOfByte (s.answerAt (2 * n))) (cellOfByte (s.answerAt (2 * n + 1))) := by
  simp [State.movedHeads, List.range_succ]

/-- The state in which ADVANCE.RAIN has made m moves and n draws. -/
def State.moved (s : State) (m n : Nat) : State :=
  (s.setHead (s.movedHeads m)).withDraws n (s.drawsMade n 0 224)

@[simp] theorem moved_zero (s : State) : s.moved 0 0 = s := by
  simp [State.moved, State.withDraws, State.movedHeads, State.drawsMade, State.setHead]

@[simp] theorem moved_head (s : State) (m n : Nat) : (s.moved m n).head = s.movedHeads m := rfl

@[simp] theorem moved_rint (s : State) (m n : Nat) : (s.moved m n).rint = s.rint := rfl

section
variable {s : State} {m n : Nat} (rest : Byte → State → Flow)

theorem withDraw_moved (h : s.answered n 0 224 = true) :
    withDraw 0 224 (s.moved m n) rest = rest (s.answerAt n) (s.moved m (n + 1)) := by
  rw [State.moved, State.moved, drawsMade_succ_last]
  exact withDraw_of_answered rest (drawsMade_length s n 0 224) h

theorem withDraw_moved_of_outOfRange {v : Byte} (h : s.replyAt n = .ack v) (hv : inRange 0 224 v = false) :
    withDraw 0 224 (s.moved m n) rest = .halt
      (State.stoppedAtDraw { s with head := s.movedHeads m } (n + 1) (s.drawsMade (n + 1) 0 224)) := by
  rw [State.moved, drawsMade_succ_last]
  exact withDraw_of_outOfRange rest (drawsMade_length s n 0 224) h hv

end

/-- An attempt draws the cell a head leaves and the cell it moves to (R194 stage 1). -/
theorem attempt_moved {s : State} {m : Nat} (hfrom : s.answered (2 * m) 0 224 = true)
    (hto : s.answered (2 * m + 1) 0 224 = true) :
    attempt (s.moved m (2 * m)) = .go (s.moved (m + 1) (2 * (m + 1))) := by
  rw [attempt, withDraw_moved _ hfrom, withDraw_moved _ hto, Nat.mul_succ, State.moved, State.moved, movedHeads_succ]
  rfl

theorem times_attempt {s : State} {m : Nat} (hans : ∀ j < 2 * m, s.answered j 0 224 = true) :
    Flow.times attempt m s = .go (s.moved m (2 * m)) := by
  induction m with
  | zero => rw [Nat.mul_zero, moved_zero]; rfl
  | succ m ih =>
    rw [Flow.times_add, ih fun j hj => hans j (by omega), Flow.andThen_go, Flow.times_one,
      attempt_moved (hans _ (by omega)) (hans _ (by omega))]

/-- An attempt stops at the first of its two draws that is answered out of range. -/
theorem attempt_of_outOfRange {s : State} {m n : Nat} {v : Byte} (hn : n / 2 = m)
    (hans : ∀ j < n, s.answered j 0 224 = true) (hreply : s.replyAt n = .ack v) (hout : inRange 0 224 v = false) :
    attempt (s.moved m (2 * m)) = .halt
      (State.stoppedAtDraw { s with head := s.movedHeads m } (n + 1) (s.drawsMade (n + 1) 0 224)) := by
  obtain rfl | rfl : n = 2 * m ∨ n = 2 * m + 1 := by omega
  · rw [attempt, withDraw_moved_of_outOfRange _ hreply hout]
  · rw [attempt, withDraw_moved _ (hans _ (Nat.lt_succ_self _)), withDraw_moved_of_outOfRange _ hreply hout]

/-- The answer of draw n out of range, ADVANCE.RAIN stops there with the attempts before that draw's done. -/
theorem advanceRain_of_outOfRange {s : State} {n : Nat} {v : Byte} (hn : n < 48)
    (hans : ∀ j < n, s.answered j 0 224 = true) (hreply : s.replyAt n = .ack v) (hout : inRange 0 224 v = false) :
    advanceRain hardware s = .halt
      (State.stoppedAtDraw { s with head := s.movedHeads (n / 2) } (n + 1) (s.drawsMade (n + 1) 0 224)) := by
  have hsplit : hardware.rainAttempts = n / 2 + (1 + (23 - n / 2)) := by
    change 24 = _
    omega
  rw [advanceRain, hsplit, Flow.times_add, times_attempt fun j hj => hans j (by omega), Flow.andThen_go, Flow.times_add,
    Flow.times_one, attempt_of_outOfRange rfl hans hreply hout, Flow.andThen_halt, Flow.andThen_halt]

/-- Settles O43: the attempts before draw n's are the first n / 2; UPDATE.RAIN's advance starts with the same heads and the
same replies to come. -/
theorem advanceRainStopsAtBadDraw : Obligations.AdvanceRainStopsAtBadDraw := by
  unfold Obligations.AdvanceRainStopsAtBadDraw
  intro s n v hn hans hreply hv
  have hout : inRange 0 224 v = false := inRange_eq_false (.inr hv)
  refine ⟨exec_of_halt (i := .advanceRain) (advanceRain_of_outOfRange hn hans hreply hout), fun hsink => ?_⟩
  obtain ⟨u, hu, hbody⟩ := update_presents hardware hardware.fpsRain (advanceRain hardware) (renderRain_eq hardware s) hsink
  refine ⟨u, hu, ?_⟩
  obtain ⟨m, f, -, -, rfl⟩ := hu
  exact exec_of_halt (i := .updateRain) (hbody.trans (advanceRain_of_outOfRange hn hans hreply hout))

/-- Going up the rows the rotation of a column reads no cell it has written, and writes none twice (R194 stage 3). -/
theorem pairwise_rowsUp (c : Col) : rowsUp.Pairwise fun r r' =>
    idx r'.succ c ≠ idx r.castSucc c ∧ idx r.castSucc c ≠ idx r'.castSucc c := by
  have hrows : rowsUp.Pairwise (· < ·) := by
    unfold rowsUp
    exact List.pairwise_lt_finRange 15
  refine hrows.imp fun h => ?_
  have hlt := Fin.lt_def.mp h
  simp only [Ne, idx, Fin.mk.injEq, Fin.val_succ, Fin.val_castSucc]
  omega

/-- Each cell of the column takes the bit of the row above, the top one the bit of row 0. -/
theorem entry_rotateColumn (head : Bank Bool) (r : Row) (c : Col) :
    entry (rotateColumn head c) (idx r c) = entry head (idx (r + 1) c) := by
  unfold rotateColumn
  cases r using Fin.lastCases with
  | last => exact entry_put_same _ _ _
  | cast r =>
    have htop : idx r.castSucc c ≠ idx 15 c := fun h => (Fin.castSucc_lt_last r).ne (idx_inj.mp h).1
    have hrow : r ∈ rowsUp := by simp [rowsUp]
    rw [entry_put_other _ _ htop, Fin.coeSucc_eq_succ]
    exact entry_foldl_inPlace (dst := fun r => idx r.castSucc c) (f := id) (pairwise_rowsUp c) head hrow

theorem entry_rotateColumn_of_ne (head : Bank Bool) (r : Row) {c c' : Col} (h : c' ≠ c) :
    entry (rotateColumn head c) (idx r c') = entry head (idx r c') := by
  have hcell : ∀ r', idx r c' ≠ idx r' c := fun _ h' => h (idx_inj.mp h').2
  unfold rotateColumn
  rw [entry_put_other _ _ (hcell 15)]
  exact entry_foldl_inPlace_of_ne (f := id) (fun _ _ => hcell _) head

theorem entry_foldl_rotateColumn {l : List Col} (hl : l.Nodup) (head : Bank Bool) (r : Row) (c : Col) :
    entry (l.foldl rotateColumn head) (idx r c) = if c ∈ l then entry head (idx (r + 1) c) else entry head (idx r c) := by
  induction l generalizing head with
  | nil => rfl
  | cons c' l ih =>
    obtain ⟨hc', hl⟩ := List.nodup_cons.mp hl
    rw [List.foldl_cons, ih hl]
    by_cases h : c = c'
    · subst h
      rw [if_neg hc', if_pos List.mem_cons_self, entry_rotateColumn]
    · simp [h, entry_rotateColumn_of_ne]

/-- Every column moves down one row, row 0 to row 15 (R197). -/
theorem entry_rotateHeads (head : Bank Bool) (r : Row) (c : Col) :
    entry (rotateHeads head) (idx r c) = entry head (idx (r + 1) c) := by
  rw [rotateHeads, entry_foldl_rotateColumn nodup_cols, if_pos (mem_cols c)]

/-- Every head lights its cell, the other cells stay (R194 stage 4). -/
theorem entry_lightHeads (p : Config.Parameters) (head : Bank Bool) (rint : Bank Byte) (k : Cell) :
    entry (lightHeads p head rint) k = if entry head k then p.rainHeadLevel else entry rint k := by
  have hfilter := List.foldl_filter (p := entry head) (f := fun b k => put b k p.rainHeadLevel) (l := linear) (init := rint)
  rw [lightHeads, ← hfilter, entry_foldl_put fun _ => p.rainHeadLevel]
  simp [linear]

/-- The three stages that draw nothing, as one write of each array (R194 stages 2 to 4). -/
theorem fadeRotateLight_eq (p : Config.Parameters) (s : State) :
    fadeRotateLight p s =
      (s.setHead (rotateHeads s.head)).setRint (lightHeads p (rotateHeads s.head) (fadeRain p s.rint)) := rfl

/-- The heads after an advance. -/
def State.rainHeads (s : State) : Bank Bool := rotateHeads (s.movedHeads 24)

/-- The intensities after an advance. -/
def State.rainLit (s : State) : Bank Byte := lightHeads hardware s.rainHeads (fadeRain hardware s.rint)

theorem rainAdvanced_rainHeads_rainLit (s : State) : RainAdvanced s s.rainHeads s.rainLit := by
  refine ⟨entry_rotateHeads (s.movedHeads 24), fun k => ?_⟩
  rw [State.rainLit, entry_lightHeads, fadeRain, entry_map]
  rfl

/-- Answered in range, ADVANCE.RAIN makes its 24 attempts and then runs the stages that draw nothing. -/
theorem advanceRain_of_answered {s : State} (hans : ∀ j < 48, s.answered j 0 224 = true) :
    advanceRain hardware s =
      .go (((s.setHead s.rainHeads).setRint s.rainLit).withDraws 48 (s.drawsMade 48 0 224)) := by
  have htimes : Flow.times attempt hardware.rainAttempts s = .go (s.moved 24 48) := times_attempt hans
  rw [advanceRain, htimes, Flow.andThen_go, fadeRotateLight_eq, moved_head, moved_rint]
  simp only [State.moved, State.withDraws, State.setHead, State.setRint, State.rainLit, State.rainHeads]

/-- Settles O52: the advance of the presented state, whose heads, intensities and replies are those before the frame. -/
theorem updateRainResult : Obligations.UpdateRainResult := by
  unfold Obligations.UpdateRainResult
  intro s hsink hans
  obtain ⟨u, ⟨m, f, hm, hf, rfl⟩, hbody⟩ := update_presents hardware hardware.fpsRain (advanceRain hardware)
    (renderRain_eq hardware s) hsink
  exact ⟨m, f, _, _, hm, hf, rainAdvanced_rainHeads_rainLit s,
    exec_of_go (i := .updateRain) (hbody.trans (advanceRain_of_answered hans))⟩

end Sys2Proof.Machine
end

section
/-! The Starfield engine: its three draws, and how its advance ends (45_starfield R213, R214). -/

namespace Sys2Proof.Machine

theorem toNat_satSub8 (a b : Byte) : (satSub8 a b).toNat = a.toNat - b.toNat := by
  have ha := a.isLt
  rw [satSub8, BitVec.toNat_ofNat]
  omega

theorem starMade_length (s : State) (n : Fin 3) : (s.starMade n.val).length = n.val := by
  simp [State.starMade]

theorem starMade_succ (s : State) (n : Fin 3) :
    s.starMade (n.val + 1) = s.starMade n.val ++ [⟨(starBounds n).1, (starBounds n).2, s.answerAt n.val⟩] := by
  match n with
  | 0 => rfl
  | 1 => rfl
  | 2 => rfl

/-- The state in which ADVANCE.STAR has faded every intensity and made its first n draws. -/
def State.starFaded (s : State) (n : Nat) : State :=
  (s.setSint (fadeStar hardware s.sint)).withDraws n (s.starMade n)

/-- What ADVANCE.STAR does with the answer to its n-th draw. -/
def State.afterStarDraw (s : State) (n : Fin 3) : Byte → State → Flow :=
  match n with
  | 0 => fun v t => if v = 0 then spawnStar hardware t else .go t
  | 1 => fun k t => withDraw 0xA0 0x100 t fun v t => .go (t.setSint (put t.sint (cellOfByte k) v))
  | 2 => fun v t => .go (t.setSint (put t.sint (cellOfByte (s.answerAt 1)) v))

theorem withDraw_starFaded {s : State} (n : Fin 3) (rest : Byte → State → Flow)
    (h : s.answered n.val (starBounds n).1 (starBounds n).2 = true) :
    withDraw (starBounds n).1 (starBounds n).2 (s.starFaded n.val) rest =
      rest (s.answerAt n.val) (s.starFaded (n.val + 1)) := by
  rw [State.starFaded, State.starFaded, starMade_succ]
  exact withDraw_of_answered rest (starMade_length s n) h

/-- Where ADVANCE.STAR comes to its n-th draw, it is that draw and what follows it. -/
theorem advanceStar_of_reaches {s : State} {n : Fin 3} (h : s.starReaches n) :
    advanceStar hardware s =
      withDraw (starBounds n).1 (starBounds n).2 (s.starFaded n.val) (s.afterStarDraw n) := by
  obtain ⟨hspawn, hcell⟩ := h
  have hfirst : advanceStar hardware s = withDraw 0 4 (s.starFaded 0) (s.afterStarDraw 0) := by
    have hnone : s.starFaded 0 = s.setSint (fadeStar hardware s.sint) := by
      simp [State.starFaded, State.withDraws, State.starMade, State.setSint]
    rw [hnone]
    rfl
  have hsecond (hs : s.answered 0 0 4 = true ∧ s.answerAt 0 = 0) :
      advanceStar hardware s = withDraw 0 224 (s.starFaded 1) (s.afterStarDraw 1) :=
    (hfirst.trans (withDraw_starFaded 0 _ hs.1)).trans (if_pos hs.2)
  match n with
  | 0 => exact hfirst
  | 1 => exact hsecond (hspawn Nat.one_pos)
  | 2 => exact (hsecond (hspawn Nat.two_pos)).trans (withDraw_starFaded 1 _ (hcell Nat.one_lt_two))

theorem entry_fadeStar (b : Bank Byte) (k : Cell) : entry (fadeStar hardware b) k = satSub8 (entry b k) 2 :=
  entry_map _ b k

theorem starFaded_iff {s : State} {b : Bank Byte} : StarFaded s b ↔ b = fadeStar hardware s.sint := by
  constructor
  · exact fun h => bank_ext fun k => (h k).trans (entry_fadeStar s.sint k).symm
  · rintro rfl
    exact entry_fadeStar s.sint

theorem exists_starAdvanced (s : State) : ∃ b, StarAdvanced s b := ⟨_, entry_ofFn _⟩

/-- Without a spawn an advance is the fade. -/
theorem StarAdvanced.eq_fade {s : State} {b : Bank Byte} (hb : StarAdvanced s b) (h0 : s.answerAt 0 ≠ 0) :
    b = fadeStar hardware s.sint :=
  starFaded_iff.mp fun k => (hb k).trans (if_neg fun h => h0 h.1)

/-- A drawn cell in range is the one its byte names. -/
theorem eq_cellOfByte_iff {v : Byte} (hv : v.toNat < 224) (k : Cell) : k = cellOfByte v ↔ v.toNat = k.val := by
  simp [Fin.ext_iff, cellOfByte, Fin.ofNat, Nat.mod_eq_of_lt hv, eq_comm]

/-- With a spawn an advance is the fade and then the write of the drawn cell. -/
theorem StarAdvanced.eq_spawn {s : State} {b : Bank Byte} (hb : StarAdvanced s b) (h0 : s.answerAt 0 = 0)
    (h1 : (s.answerAt 1).toNat < 224) :
    b = put (fadeStar hardware s.sint) (cellOfByte (s.answerAt 1)) (s.answerAt 2) := by
  refine bank_ext fun k => ?_
  rw [hb k, entry_put, entry_fadeStar]
  simp only [h0, true_and, eq_cellOfByte_iff h1]

theorem starAnswered_iff {s : State} : s.starAnswered = true ↔
    s.answered 0 0 4 = true ∧
      (s.answerAt 0 = 0 → s.answered 1 0 224 = true ∧ s.answered 2 0xA0 0x100 = true) := by
  simp [State.starAnswered, ← imp_iff_not_or]

/-- Answered in range, ADVANCE.STAR makes its one draw or three and leaves the intensities of R213. -/
theorem advanceStar_of_answered {s : State} {b : Bank Byte} (hb : StarAdvanced s b) (hans : s.starAnswered = true) :
    advanceStar hardware s =
      .go ((s.setSint b).withDraws s.starDraws.length s.starDraws) := by
  obtain ⟨hfirst, hmore⟩ := starAnswered_iff.mp hans
  by_cases h0 : s.answerAt 0 = 0
  · obtain ⟨hcell, hvalue⟩ := hmore h0
    have hdraws : s.starDraws = s.starMade 3 := if_pos h0
    have hreaches : s.starReaches 2 := ⟨fun _ => ⟨hfirst, h0⟩, fun _ => hcell⟩
    rw [advanceStar_of_reaches hreaches, withDraw_starFaded 2 _ hvalue, hdraws,
      hb.eq_spawn h0 (toNat_lt_of_answered hcell)]
    rfl
  · have hdraws : s.starDraws = s.starMade 1 := if_neg h0
    have hreaches : s.starReaches 0 := ⟨fun h => absurd h (lt_irrefl 0), fun h => absurd h (by decide)⟩
    rw [advanceStar_of_reaches hreaches, withDraw_starFaded 0 _ hfirst, hdraws, hb.eq_fade h0]
    exact if_neg h0

/-- The answer of draw n out of range, ADVANCE.STAR stops there with the fade run and no cell spawned. -/
theorem advanceStar_of_outOfRange {s : State} {n : Fin 3} {v : Byte} (hn : s.starReaches n)
    (hreply : s.replyAt n.val = .ack v) (hout : inRange (starBounds n).1 (starBounds n).2 v = false) :
    advanceStar hardware s = .halt
      (State.stoppedAtDraw { s with sint := fadeStar hardware s.sint } (n.val + 1) (s.starMade (n.val + 1))) := by
  rw [advanceStar_of_reaches hn, starMade_succ]
  exact withDraw_of_outOfRange (s := s.setSint _) _ (starMade_length s n) hreply hout

/-- Draws not all answered in range: there is a first such draw, and the advance comes to it. -/
theorem exists_reaches_of_not_answered {s : State} (h : ¬s.starAnswered = true) :
    ∃ n, s.starReaches n ∧ s.answered n.val (starBounds n).1 (starBounds n).2 = false := by
  by_cases hfirst : s.answered 0 0 4 = true
  · obtain ⟨h0, hlater⟩ := Classical.not_imp.mp fun hmore => h (starAnswered_iff.mpr ⟨hfirst, hmore⟩)
    by_cases hcell : s.answered 1 0 224 = true
    · exact ⟨2, ⟨fun _ => ⟨hfirst, h0⟩, fun _ => hcell⟩, Bool.eq_false_iff.mpr fun hvalue => hlater ⟨hcell, hvalue⟩⟩
    · exact ⟨1, ⟨fun _ => ⟨hfirst, h0⟩, fun h => absurd h (by decide)⟩, Bool.eq_false_iff.mpr hcell⟩
  · exact ⟨0, ⟨fun h => absurd h (by decide), fun h => absurd h (by decide)⟩, Bool.eq_false_iff.mpr hfirst⟩

/-- An ADVANCE.STAR that faults or stalls has run the fade and spawned no cell. -/
theorem advanceStar_of_not_answered {s : State} (h : ¬s.starAnswered = true) :
    ∃ t, advanceStar hardware s = .halt t ∧ t.sint = fadeStar hardware s.sint := by
  obtain ⟨n, hn, hans⟩ := exists_reaches_of_not_answered h
  rw [advanceStar_of_reaches hn]
  exact withDraw_of_not_answered (s := s.setSint _) _ (starMade_length s n) hans

/-- Every cell after an advance with its draws answered in range (R214). -/
theorem StarAdvanced.cell {s : State} {b : Bank Byte} (hb : StarAdvanced s b) (hans : s.starAnswered = true) (k : Cell) :
    if s.answerAt 0 = 0 ∧ k = cellOfByte (s.answerAt 1) then entry b k = s.answerAt 2
    else (entry b k).toNat = (entry s.sint k).toNat - 2 := by
  have hcell (h0 : s.answerAt 0 = 0) : k = cellOfByte (s.answerAt 1) ↔ (s.answerAt 1).toNat = k.val :=
    eq_cellOfByte_iff (toNat_lt_of_answered ((starAnswered_iff.mp hans).2 h0).1) k
  simp only [hb k, and_congr_right hcell]
  split
  · rfl
  · exact toNat_satSub8 _ 2

/-- Settles O48: draws answered in range give the fade and the spawn, any others the fade alone; a draw out of range is the
one the advance comes to. -/
theorem advanceStarBrightensAtMostOneCell : Obligations.AdvanceStarBrightensAtMostOneCell := by
  unfold Obligations.AdvanceStarBrightensAtMostOneCell
  constructor
  · intro s t ht j
    by_cases hans : s.starAnswered = true
    · obtain ⟨b, hb⟩ := exists_starAdvanced s
      rw [exec_of_go (i := .advanceStar) (advanceStar_of_answered hb hans)] at ht
      cases ht
      simp only [hans, true_and]
      exact hb.cell hans j
    · obtain ⟨u, hu, hfade⟩ := advanceStar_of_not_answered hans
      rw [exec_of_halt (i := .advanceStar) hu] at ht
      cases ht
      rw [if_neg fun h => hans h.1, hfade, entry_fadeStar]
      exact toNat_satSub8 _ 2
  · intro s n v hn hreply hv
    have hout := inRange_eq_false hv
    refine ⟨_, starFaded_iff.mpr rfl, exec_of_halt (i := .advanceStar) (advanceStar_of_outOfRange hn hreply hout),
      fun hsink => ?_⟩
    obtain ⟨u, hu, hbody⟩ := update_presents hardware hardware.fpsStar (advanceStar hardware) (renderStar_eq s) hsink
    refine ⟨u, hu, ?_⟩
    obtain ⟨m, f, -, -, rfl⟩ := hu
    exact exec_of_halt (i := .updateStar) (hbody.trans (advanceStar_of_outOfRange hn hreply hout))

/-- Settles O53: the advance of the presented state, whose intensities and replies are those before the frame. -/
theorem updateStarResult : Obligations.UpdateStarResult := by
  unfold Obligations.UpdateStarResult
  intro s hsink hans
  obtain ⟨u, ⟨m, f, hm, hf, rfl⟩, hbody⟩ := update_presents hardware hardware.fpsStar (advanceStar hardware)
    (renderStar_eq s) hsink
  obtain ⟨b, hb⟩ := exists_starAdvanced s
  exact ⟨m, f, b, hm, hf, hb, exec_of_go (i := .updateStar) (hbody.trans (advanceStar_of_answered hb hans))⟩

end Sys2Proof.Machine
end

section
/-! One induction for a command issued n times (20_memory R61). -/

namespace Sys2Proof.Machine

/-- What holds of the state before n executions of a command, and what each execution carries on, holds after them. -/
theorem execAll_replicate_induction {i : Instr} {n : Nat} {P : Nat → State → Prop} {s : State} (hzero : P 0 s)
    (hstep : ∀ m < n, ∀ t, P m t → ∃ u, exec i t = .next u ∧ P (m + 1) u) :
    ∃ t, execAll (List.replicate n i) s = .next t ∧ P n t := by
  induction n generalizing P s with
  | zero => exact ⟨s, rfl, hzero⟩
  | succ n ih =>
    obtain ⟨u, hu, hone⟩ := hstep 0 n.succ_pos s hzero
    rw [List.replicate_succ, execAll_cons _ hu]
    exact ih (P := fun m => P (m + 1)) hone fun m hm => hstep (m + 1) (Nat.succ_lt_succ hm)

end Sys2Proof.Machine
end

section
/-! The rise of Fire as a number, one advance as a command, and the heat n advances leave (43_fire R173, R174, R176). -/

namespace Sys2Proof.Machine

theorem toNat_satAdd8 (a b : Byte) : (satAdd8 a b).toNat = min (a.toNat + b.toNat) 255 := by
  rw [satAdd8, BitVec.toNat_ofNat]
  omega

/-- The rise is +16 held at 0xF0: the saturation at 255 comes before the subtrahend 15 (R174). -/
theorem toNat_rise (x : Byte) : (rise hardware x).toNat = min (x.toNat + 16) 0xF0 := by
  have hadd : hardware.fireAdd.toNat = 31 := rfl
  have hsub : hardware.fireSub.toNat = 15 := rfl
  rw [rise, toNat_satSub8, toNat_satAdd8, hadd, hsub]
  omega

theorem toNat_iterate_rise (n : Nat) (x : Byte) :
    ((rise hardware)^[n + 1] x).toNat = min (x.toNat + 16 * (n + 1)) 0xF0 := by
  induction n with
  | zero => exact toNat_rise x
  | succ n ih =>
    rw [Function.iterate_succ_apply', toNat_rise, ih]
    omega

/-- Settles O36: once by the saturations' values, n times by induction, where a risen index at 0xF0 stays there. -/
theorem riseClosedForm : Obligations.RiseClosedForm := by
  unfold Obligations.RiseClosedForm
  refine ⟨fun x => ⟨rfl, toNat_rise x⟩, fun n x hn => ?_⟩
  obtain ⟨m, rfl⟩ := Nat.exists_eq_succ_of_ne_zero hn
  exact toNat_iterate_rise m x

/-- Settles O37: going down the rows, the sweep reads no cell it has written. -/
theorem fireSweepIsSimultaneous : Obligations.FireSweepIsSimultaneous := by
  unfold Obligations.FireSweepIsSimultaneous
  exact fun p heat c => ⟨fun below => entry_riseSweep_succ p heat below c, entry_riseSweep_zero p heat c⟩

theorem exists_fireAdvanced (s : State) : ∃ h, FireAdvanced s h :=
  ⟨_, fireAdvanced_iff.mpr (fireSeededTo_iff.mpr rfl)⟩

theorem exec_advanceFire_of_answered {s : State} {h : Bank Byte} (hh : FireAdvanced s h)
    (hans : ∀ j < 14, s.answered j 0x20 0x90 = true) :
    exec .advanceFire s = .next (complete ((s.setHeat h).drawn 14 0x20 0x90)) :=
  exec_of_go (i := .advanceFire) (advanceFire_of_answered hh hans)

/-- Settles O38: the body makes its 14 draws and sets the heat of R173, and then the command completes. -/
theorem advanceFireResult : Obligations.AdvanceFireResult := by
  unfold Obligations.AdvanceFireResult
  intro s hans
  obtain ⟨h, hh⟩ := exists_fireAdvanced s
  exact ⟨h, hh, exec_advanceFire_of_answered hh hans⟩

/-- The heat index of a cell after n advances from the initial state, the draws counted from `s` (R176). -/
def State.agedHeat (s : State) (n : Nat) (r : Row) (c : Col) : Nat :=
  if r.val < n then min ((s.answerAt (14 * (n - r.val - 1) + c.val)).toNat + 16 * r.val) 0xF0 else 0xF0

/-- The state `t` is n advances of Fire after `s`: the draws of n advances are made and the heat is that of R176. -/
structure State.AgedTo (s : State) (n : Nat) (t : State) : Prop where
  reply : ∀ j, t.replyAt j = s.replyAt (14 * n + j)
  heat : ∀ r c, (entry t.heat (idx r c)).toNat = s.agedHeat n r c

theorem toNat_seed_of_answered {s : State} {j : Nat} (h : s.answered j 0x20 0x90 = true) :
    0x20 ≤ (s.answerAt j).toNat ∧ (s.answerAt j).toNat < 0x90 :=
  inRange_eq_true_iff.mp (inRange_of_answered h)

theorem agedHeat_zero_row {s : State} {n : Nat} {c : Col} (h : s.answered (14 * n + c.val) 0x20 0x90 = true) :
    s.agedHeat (n + 1) 0 c = (s.answerAt (14 * n + c.val)).toNat := by
  have hseed := (toNat_seed_of_answered h).2
  simp only [State.agedHeat, Fin.val_zero, Nat.succ_pos, if_true, Nat.sub_zero, Nat.add_sub_cancel]
  omega

/-- One advance more moves the heat up one row and raises it. -/
theorem agedHeat_succ_row (s : State) (n : Nat) (below : Fin 15) (c : Col) :
    s.agedHeat (n + 1) below.succ c = min (s.agedHeat n below.castSucc c + 16) 0xF0 := by
  simp only [State.agedHeat, Fin.val_succ, Fin.val_castSucc, Nat.add_lt_add_iff_right, Nat.add_sub_add_right]
  split <;> omega

theorem agedTo_zero {s : State} (h : ∀ k : Cell, entry s.heat k = 0xF0) : s.AgedTo 0 s where
  reply j := by simp
  heat r c := by simp [State.agedHeat, h]

theorem State.AgedTo.advance {s t : State} {n : Nat} (ht : s.AgedTo n t)
    (hans : ∀ c : Col, s.answered (14 * n + c.val) 0x20 0x90 = true) :
    ∃ u, exec .advanceFire t = .next u ∧ s.AgedTo (n + 1) u := by
  have hanswer : ∀ j, t.answerAt j = s.answerAt (14 * n + j) := fun j => by
    simp only [State.answerAt, ht.reply]
  have hanswered : ∀ j < 14, t.answered j 0x20 0x90 = true := fun j hj => by
    simpa only [State.answered, ht.reply] using hans ⟨j, hj⟩
  obtain ⟨h, hh⟩ := exists_fireAdvanced t
  refine ⟨_, exec_advanceFire_of_answered hh hanswered, fun j => ?_, fun r c => ?_⟩
  · calc ((t.setHeat h).drawn 14 0x20 0x90).replyAt j
        = t.replyAt (14 + j) := drawn_replyAt _ _ _ _ _
      _ = s.replyAt (14 * (n + 1) + j) := by rw [ht.reply, ← Nat.add_assoc, Nat.mul_succ]
  · obtain ⟨hzero, hsucc⟩ := hh
    change (entry h (idx r c)).toNat = _
    cases r using Fin.cases with
    | zero => rw [hzero, hanswer, agedHeat_zero_row (hans c)]
    | succ below =>
      calc (entry h (idx below.succ c)).toNat
          = (rise hardware (entry t.heat (idx below.castSucc c))).toNat := congrArg BitVec.toNat (hsucc below c)
        _ = s.agedHeat (n + 1) below.succ c := by rw [toNat_rise, ht.heat, agedHeat_succ_row]

theorem agedHeat_le (s : State) (n : Nat) (r : Row) (c : Col) : s.agedHeat n r c ≤ 0xF0 := by
  unfold State.agedHeat
  split <;> omega

theorem le_agedHeat {s : State} {n : Nat} (hans : ∀ j < 14 * n, s.answered j 0x20 0x90 = true) (r : Row) (c : Col) :
    min (0x20 + 16 * r.val) 0xF0 ≤ s.agedHeat n r c := by
  unfold State.agedHeat
  split
  · have hseed := (toNat_seed_of_answered (hans (14 * (n - r.val - 1) + c.val) (by omega))).1
    omega
  · exact min_le_right _ _

/-- Settles O40: the closed form is kept by every advance, which moves it up one row; the ranges are read off it. -/
theorem fireHeatClosedForm : Obligations.FireHeatClosedForm := by
  unfold Obligations.FireHeatClosedForm
  intro s n hn hinit hans
  obtain ⟨t, hrun, haged⟩ := execAll_replicate_induction (n := n) (P := s.AgedTo) (agedTo_zero hinit)
    fun m hm _ ht => ht.advance fun c => hans (14 * m + c.val) (by omega)
  refine ⟨t, hrun, haged.heat, fun c => ?_, fun r c => ?_⟩
  · obtain ⟨m, rfl⟩ := Nat.exists_eq_succ_of_ne_zero hn
    have hseed := hans (14 * m + c.val) (by omega)
    rw [haged.heat, agedHeat_zero_row hseed]
    exact toNat_seed_of_answered hseed
  · rw [haged.heat]
    exact ⟨le_agedHeat hans r c, agedHeat_le s n r c⟩

end Sys2Proof.Machine
end

section
/-! The cells in linear-index order (20_memory R51). -/

namespace Sys2Proof.Machine

theorem nodup_linear : linear.Nodup := by
  unfold linear
  exact List.nodup_finRange 224

@[simp] theorem length_linear : linear.length = 224 := by simp [linear]

@[simp] theorem getElem_linear (n : Nat) (hn : n < linear.length) : linear[n] = ⟨n, by simpa using hn⟩ := by
  simp [linear]

theorem mem_take_linear {k : Cell} {n : Nat} : k ∈ linear.take n ↔ k.val < n := by
  simp only [List.mem_take_iff_getElem, getElem_linear, length_linear]
  constructor
  · rintro ⟨i, hi, rfl⟩
    exact (lt_min_iff.mp hi).1
  · exact fun h => ⟨k.val, lt_min h k.isLt, rfl⟩

/-- The cells before cell n, cell n, and those after it. -/
theorem linear_eq_append (n : Cell) : linear = linear.take n.val ++ n :: linear.drop (n.val + 1) := by
  have hn : n.val < linear.length := by simp
  have hdrop : linear.drop n.val = n :: linear.drop (n.val + 1) := by
    rw [List.drop_eq_getElem_cons hn, getElem_linear]
  rw [← hdrop, List.take_append_drop]

end Sys2Proof.Machine
end

section
/-! INIT.RAIN: the heads its draws make, and how it ends (44_rain R192). -/

namespace Sys2Proof.Machine

/-- The heads of an INIT.RAIN from `s` that has drawn the first n cells. -/
def State.drawnHeads (s : State) (n : Nat) : Bank Bool :=
  headField.folded (fun k v b => put b k (decide (v = 0))) s (linear.take n) 0 s.head

theorem entry_drawnHeads (s : State) (n : Nat) (k : Cell) :
    entry (s.drawnHeads n) k = if k.val < n then decide (s.answerAt k.val = 0) else entry s.head k := by
  split
  · next hk =>
    have hcells : (linear.take n).Pairwise (· ≠ ·) := nodup_linear.sublist (List.take_sublist n linear)
    have hentry := headField.entry_folded_put (cell := id) (fun v => decide (v = 0)) s hcells 0 s.head (i := k.val)
      (by simp [hk])
    simpa [State.drawnHeads] using hentry
  · next hk =>
    have hcell : ∀ a ∈ linear.take n, k ≠ id a := fun a ha h => hk (mem_take_linear.mp (h ▸ ha))
    exact headField.entry_folded_put_of_ne _ s hcell 0 s.head

/-- R192 fixes every cell. -/
theorem headsDrawnTo_iff {s : State} {n : Nat} {h : Bank Bool} : HeadsDrawnTo s n h ↔ h = s.drawnHeads n := by
  constructor
  · exact fun hh => bank_ext fun k => (hh k).trans (entry_drawnHeads s n k).symm
  · rintro rfl
    exact entry_drawnHeads s n

/-- The drawing loop starts from the cleared intensities, on which its draws do not depend. -/
theorem folded_setRint (s : State) (n : Nat) :
    headField.folded (fun k v b => put b k (decide (v = 0))) (s.setRint (fillBank 0)) (linear.take n) 0
      (headField.get (s.setRint (fillBank 0))) = s.drawnHeads n :=
  headField.folded_congr _ (s := s) (t := s.setRint (fillBank 0)) _ (fun _ => rfl) _

/-- Answered in range, INIT.RAIN makes its 224 draws and leaves the heads of R192. -/
theorem initRain_of_answered {s : State} {h : Bank Bool} (hh : HeadsDrawnTo s 224 h)
    (hans : ∀ j < 224, s.answered j 0 8 = true) :
    initRain hardware s = .go (((s.setRint (fillBank 0)).setHead h).drawn 224 0 8) := by
  have hall : linear.take 224 = linear := List.take_of_length_le (by simp)
  have hloop := headField.loop_answered 0 8 (fun k v b => put b k (decide (v = 0))) (linear.take 224)
    (s.setRint (fillBank 0)) fun j hj => hans j (by simpa using hj)
  rw [folded_setRint, ← headsDrawnTo_iff.mp hh, hall, length_linear] at hloop
  exact hloop

/-- The answer for cell n out of range, INIT.RAIN stops there, cell n and those after it not drawn. -/
theorem initRain_of_outOfRange {s : State} {n : Cell} {v : Byte} {h : Bank Bool} (hh : HeadsDrawnTo s n.val h)
    (hans : ∀ j < n.val, s.answered j 0 8 = true) (hreply : s.replyAt n.val = .ack v)
    (hout : inRange 0 8 v = false) :
    initRain hardware s = .halt
      (State.stoppedAtDraw { s with head := h, rint := fillBank 0 } (n.val + 1) (s.drawsMade (n.val + 1) 0 8)) := by
  have hlen : (linear.take n.val).length = n.val := by simp
  have hloop := headField.loop_stops 0 8 (fun k v b => put b k (decide (v = 0))) (linear.take n.val) n
    (linear.drop (n.val + 1)) (s.setRint (fillBank 0)) v (by rw [hlen]; exact hans) (by rw [hlen]; exact hreply) hout
  rw [← linear_eq_append, folded_setRint, ← headsDrawnTo_iff.mp hh, hlen] at hloop
  exact hloop

/-- Settles O41: the loop over the cells writes each draw into its own cell, as far as it comes. -/
theorem initRainDrawsHeads : Obligations.InitRainDrawsHeads := by
  unfold Obligations.InitRainDrawsHeads
  constructor
  · intro s hans
    have hh := headsDrawnTo_iff.mpr (rfl : s.drawnHeads 224 = _)
    have hhead (k : Cell) : entry (s.drawnHeads 224) k = true ↔ s.answerAt k.val = 0 := by
      rw [hh k, if_pos k.isLt, decide_eq_true_iff]
    exact ⟨_, hhead, exec_of_go (i := .initRain) (initRain_of_answered hh hans)⟩
  · intro s n v hans hreply hv
    have hout : inRange 0 8 v = false := inRange_eq_false (.inr hv)
    have hh := headsDrawnTo_iff.mpr (rfl : s.drawnHeads n.val = _)
    exact ⟨_, hh, exec_of_halt (i := .initRain) (initRain_of_outOfRange hh hans hreply hout)⟩

end Sys2Proof.Machine
end

section
/-! One ADVANCE.RAIN as a command, its rotation repeated, and the number of heads it keeps (44_rain R194, R196, R197). -/

namespace Sys2Proof.Machine

/-- Settles O42: the body makes its 48 draws and leaves the heads and intensities of R194, and then the command
completes. -/
theorem advanceRainResult : Obligations.AdvanceRainResult := by
  unfold Obligations.AdvanceRainResult
  exact fun s hans =>
    ⟨_, _, rainAdvanced_rainHeads_rainLit s, exec_of_go (i := .advanceRain) (advanceRain_of_answered hans)⟩

theorem entry_iterate_rotateHeads (n : Nat) (head : Bank Bool) (r : Row) (c : Col) :
    entry (rotateHeads^[n] head) (idx r c) = entry head (idx ((· + 1)^[n] r) c) := by
  induction n generalizing r with
  | zero => rfl
  | succ n ih => rw [Function.iterate_succ_apply', entry_rotateHeads, ih, Function.iterate_succ_apply]

/-- Settles O45: one rotation reads every bit from the row above, sixteen of them from sixteen rows above. -/
theorem rotationMovesHeadsDown : Obligations.RotationMovesHeadsDown := by
  unfold Obligations.RotationMovesHeadsDown
  refine ⟨entry_rotateHeads, fun h => bank_ext fun k => ?_⟩
  have hround : (· + 1)^[16] (rowOf k) = rowOf k := by
    rw [add_right_iterate]
    exact add_zero (rowOf k)
  rw [← idx_rowOf_colOf k, entry_iterate_rotateHeads, hround]

theorem headCount_eq_card (b : Bank Bool) : headCount b = (Finset.univ.filter fun k => entry b k = true).card := by
  have hfilter : (linear.filter (entry b ·)).toFinset = Finset.univ.filter fun k => entry b k = true := by
    ext k
    simp [linear]
  rw [← hfilter, List.toFinset_card_of_nodup (nodup_linear.filter _), headCount]

theorem headCount_eq_zero_iff {b : Bank Bool} : headCount b = 0 ↔ ∀ k : Cell, entry b k = false := by
  simp [headCount, linear]

/-- A map that reads every bit from a cell of its own has as many heads. -/
theorem headCount_eq_of_injective {b b' : Bank Bool} {σ : Cell → Cell} (hσ : σ.Injective)
    (h : ∀ k, entry b' k = entry b (σ k)) : headCount b' = headCount b := by
  rw [headCount_eq_card, headCount_eq_card]
  exact Finset.card_bijective σ hσ.bijective_of_finite fun k => by simp [h]

/-- A head that moves exchanges the bits of the two cells. -/
theorem headCount_moveHead (head : Bank Bool) (a b : Cell) : headCount (moveHead head a b) = headCount head := by
  unfold moveHead
  split
  · next hmove =>
    obtain ⟨ha, hb⟩ := hmove
    refine headCount_eq_of_injective (Equiv.swap a b).injective fun k => ?_
    by_cases hkb : k = b
    · rw [hkb, entry_put_same, Equiv.swap_apply_right, ha]
    · rw [entry_put_other _ _ hkb]
      by_cases hka : k = a
      · rw [hka, entry_put_same, Equiv.swap_apply_left, hb]
      · rw [entry_put_other _ _ hka, Equiv.swap_apply_of_ne_of_ne hka hkb]
  · rfl

theorem headCount_rotateHeads (head : Bank Bool) : headCount (rotateHeads head) = headCount head := by
  refine headCount_eq_of_injective (σ := fun k => idx (rowOf k + 1) (colOf k)) (fun k k' h => ?_) fun k => ?_
  · obtain ⟨hrow, hcol⟩ := idx_inj.mp h
    rw [← idx_rowOf_colOf k, ← idx_rowOf_colOf k', add_right_cancel hrow, hcol]
  · rw [← entry_rotateHeads, idx_rowOf_colOf]

/-- A state with n heads. -/
def State.HasHeads (n : Nat) (s : State) : Prop := headCount s.head = n

theorem sat_attempt_hasHeads {n : Nat} {s : State} (hs : s.HasHeads n) :
    (attempt s).Sat (State.HasHeads n) (State.HasHeads n) := by
  refine sat_withDraw hs (fun _ => hs) fun a _ => sat_withDraw hs (fun _ => hs) fun b _ => ?_
  exact (headCount_moveHead s.head (cellOfByte a) (cellOfByte b)).trans hs

/-- However ADVANCE.RAIN ends, the attempts and the rotation it came to kept the number of heads. -/
theorem sat_advanceRain_hasHeads {n : Nat} {s : State} (hs : s.HasHeads n) :
    (advanceRain hardware s).Sat (State.HasHeads n) (State.HasHeads n) :=
  (Flow.sat_times (fun _ => sat_attempt_hasHeads) _ hs).andThen fun t ht => (headCount_rotateHeads t.head).trans ht

/-- Settles O44: every stage permutes the bits of the map or leaves them, and the end of a command does not touch them. -/
theorem advanceRainKeepsHeadCount : Obligations.AdvanceRainKeepsHeadCount := by
  unfold Obligations.AdvanceRainKeepsHeadCount
  intro s t ht
  rw [exec_eq_bodyOf] at ht
  cases ht
  exact (sat_advanceRain_hasHeads (s := s) rfl).final (R := State.HasHeads (headCount s.head)) (fun _ h => h) fun _ h => h

end Sys2Proof.Machine
end

section
/-! Rain without heads: what n advances leave (44_rain R199). -/

namespace Sys2Proof.Machine

/-- The state `t` is n advances of Rain after `s`, without heads: the draws of n advances are made, no head is set and every
intensity is faded n times. -/
structure State.FadedTo (s : State) (n : Nat) (t : State) : Prop where
  reply : ∀ j, t.replyAt j = s.replyAt (48 * n + j)
  heads : t.HasHeads 0
  rint : ∀ k : Cell, (entry t.rint k).toNat = (entry s.rint k).toNat - 48 * n

theorem fadedTo_zero {s : State} (h : ∀ k : Cell, entry s.head k = false) : s.FadedTo 0 s where
  reply j := by simp
  heads := headCount_eq_zero_iff.mpr h
  rint k := by simp

theorem State.FadedTo.advance {s t : State} {n : Nat} (ht : s.FadedTo n t)
    (hans : ∀ j < 48, s.answered (48 * n + j) 0 224 = true) :
    ∃ u, exec .advanceRain t = .next u ∧ s.FadedTo (n + 1) u := by
  have hanswered : ∀ j < 48, t.answered j 0 224 = true := fun j hj => by
    simpa only [State.answered, ht.reply] using hans j hj
  obtain ⟨h, i, ⟨-, hi⟩, hexec⟩ := advanceRainResult t hanswered
  have hheads : headCount h = 0 := (advanceRainKeepsHeadCount t _ hexec).trans ht.heads
  refine ⟨_, hexec, fun j => ?_, hheads, fun k => ?_⟩
  · calc (t.withDraws 48 (t.drawsMade 48 0 224)).replyAt j
        = t.replyAt (48 + j) := replyAt_withDraws (drawsMade_length t 48 0 224) j
      _ = s.replyAt (48 * (n + 1) + j) := by rw [ht.reply, ← Nat.add_assoc, Nat.mul_succ]
  · have hdark : entry h k = false := headCount_eq_zero_iff.mp hheads k
    calc (entry i k).toNat
        = (satSub8 (entry t.rint k) 48).toNat := by simp [hi, hdark]
      _ = (entry t.rint k).toNat - 48 := toNat_satSub8 _ 48
      _ = (entry s.rint k).toNat - 48 * (n + 1) := by rw [ht.rint, Nat.sub_sub, Nat.mul_succ]

/-- Settles O46: every advance keeps the map empty and fades once more; six times 48 is more than a byte holds. -/
theorem noHeadsFadeToBlack : Obligations.NoHeadsFadeToBlack := by
  unfold Obligations.NoHeadsFadeToBlack
  intro s n hhead hans
  obtain ⟨t, hrun, hfaded⟩ := execAll_replicate_induction (n := n) (P := s.FadedTo) (fadedTo_zero hhead)
    fun m hm _ ht => ht.advance fun j hj => hans (48 * m + j) (by omega)
  refine ⟨t, hrun, headCount_eq_zero_iff.mp hfaded.heads, hfaded.rint, fun hn k => BitVec.eq_of_toNat_eq ?_⟩
  have hlt := (entry s.rint k).isLt
  rw [hfaded.rint k]
  exact Nat.sub_eq_zero_of_le (by omega)

end Sys2Proof.Machine
end


section
/-! One ADVANCE.STAR as a command, and what n of them leave where none spawns (45_starfield R213, R214, R215). -/

namespace Sys2Proof.Machine

/-- Settles O47: the body makes its one draw or three and leaves the intensities of R213, and then the command completes. -/
theorem advanceStarResult : Obligations.AdvanceStarResult := by
  unfold Obligations.AdvanceStarResult
  intro s hans
  obtain ⟨b, hb⟩ := exists_starAdvanced s
  exact ⟨b, hb, exec_of_go (i := .advanceStar) (advanceStar_of_answered hb hans)⟩

/-- A draw answered in range is answered in every range that begins lower. -/
theorem answered_of_lo_le {s : State} {j : Nat} {lo lo' : Byte} {hi : BitVec 9} (h : s.answered j lo hi = true)
    (hlo : lo'.toNat ≤ lo.toNat) : s.answered j lo' hi = true := by
  unfold State.answered at h ⊢
  split at h
  · obtain ⟨hle, hlt⟩ := inRange_eq_true_iff.mp h
    exact inRange_eq_true_iff.mpr ⟨hlo.trans hle, hlt⟩
  · cases h

theorem answerAt_ne_zero_of_answered {s : State} {j : Nat} {hi : BitVec 9} (h : s.answered j 1 hi = true) :
    s.answerAt j ≠ 0 := by
  intro h0
  have hrange := inRange_of_answered h
  rw [h0, inRange_eq_true_iff] at hrange
  exact absurd hrange.1 (by decide)

/-- Its first answer 1, 2 or 3, ADVANCE.STAR makes that one draw and fades every intensity by 2. -/
theorem exec_advanceStar_of_no_spawn {s : State} (h : s.answered 0 1 4 = true) :
    exec .advanceStar s =
      .next (complete ((s.setSint (fadeStar hardware s.sint)).withDraws 1 [⟨0, 4, s.answerAt 0⟩])) := by
  have h0 : s.answerAt 0 ≠ 0 := answerAt_ne_zero_of_answered h
  have hans : s.starAnswered = true :=
    starAnswered_iff.mpr ⟨answered_of_lo_le h (Nat.zero_le _), fun hspawn => absurd hspawn h0⟩
  have hdraws : s.starDraws = [⟨0, 4, s.answerAt 0⟩] := if_neg h0
  obtain ⟨b, hb⟩ := exists_starAdvanced s
  have hbody := advanceStar_of_answered hb hans
  rw [hb.eq_fade h0, hdraws] at hbody
  exact exec_of_go (i := .advanceStar) hbody

/-- The state `t` is n advances of Starfield after `s`, without a spawn: one draw an advance is made and every intensity is
faded n times. -/
structure State.DimmedTo (s : State) (n : Nat) (t : State) : Prop where
  reply : ∀ j, t.replyAt j = s.replyAt (n + j)
  sint : ∀ k : Cell, (entry t.sint k).toNat = (entry s.sint k).toNat - 2 * n

theorem dimmedTo_zero (s : State) : s.DimmedTo 0 s where
  reply j := by rw [Nat.zero_add]
  sint k := rfl

theorem State.DimmedTo.advance {s t : State} {n : Nat} (ht : s.DimmedTo n t) (hans : s.answered n 1 4 = true) :
    ∃ u, exec .advanceStar t = .next u ∧ s.DimmedTo (n + 1) u := by
  have hanswered : t.answered 0 1 4 = true := by
    simpa only [State.answered, ht.reply, Nat.add_zero] using hans
  refine ⟨_, exec_advanceStar_of_no_spawn hanswered, fun j => ?_, fun k => ?_⟩
  · calc (t.withDraws 1 [⟨0, 4, t.answerAt 0⟩]).replyAt j
        = t.replyAt (1 + j) := replyAt_withDraws (n := 1) rfl j
      _ = s.replyAt (n + 1 + j) := by rw [ht.reply, Nat.add_assoc]
  · calc (entry (fadeStar hardware t.sint) k).toNat
        = (entry t.sint k).toNat - 2 := by rw [entry_fadeStar]; exact toNat_satSub8 _ 2
      _ = (entry s.sint k).toNat - 2 * (n + 1) := by rw [ht.sint, Nat.sub_sub, Nat.mul_succ]

/-- Settles O49: every advance without a spawn takes one draw and lowers every intensity by 2 more. -/
theorem starFadesTwoEachAdvance : Obligations.StarFadesTwoEachAdvance := by
  unfold Obligations.StarFadesTwoEachAdvance
  intro s n hans
  obtain ⟨t, hrun, hdimmed⟩ := execAll_replicate_induction (n := n) (P := s.DimmedTo) (dimmedTo_zero s)
    fun m hm _ ht => ht.advance (hans m hm)
  exact ⟨t, hrun, hdimmed.sint⟩

end Sys2Proof.Machine
end

section
/-! The Palette-Sweep counter and the frames it shows over n commands (46_sweep R234, R235). -/

namespace Sys2Proof.Machine

/-- The state has the counter that n increments from 0 reach (R233, R234). -/
def State.SweepIs (n : Nat) (s : State) : Prop := s.sweep = BitVec.ofNat 8 n

theorem State.SweepIs.toNat_sweep {n : Nat} {s : State} (h : s.SweepIs n) : s.sweep.toNat = n % 256 := by
  rw [h, BitVec.toNat_ofNat]

/-- One increment more is the counter of the next number, the wrap at 256 included. -/
theorem State.SweepIs.sweep_add_one {n : Nat} {s : State} (h : s.SweepIs n) :
    s.sweep + 1 = BitVec.ofNat 8 (n + 1) := by
  rw [h]
  exact (BitVec.ofNat_add n 1).symm

theorem State.SweepIs.advance {n : Nat} {s : State} (h : s.SweepIs n) :
    ∃ t, exec .advanceSweep s = .next t ∧ t.SweepIs (n + 1) := by
  obtain ⟨-, -, -, -, -, hexec⟩ := registerCommandsComplete s 0
  exact ⟨_, hexec, h.sweep_add_one⟩

/-- n ADVANCE.SWEEP from counter 0 complete with the counter of n (R234). -/
theorem execAll_advanceSweep {s : State} (n : Nat) (h : s.sweep = 0) :
    ∃ t, execAll (List.replicate n .advanceSweep) s = .next t ∧ t.SweepIs n :=
  execAll_replicate_induction (P := State.SweepIs) h fun _ _ _ hu => hu.advance

/-- Settles O50: n increments reach n mod 256, which is n itself, and so not 0, where n is positive and below 256. -/
theorem sweepHasPeriod256 : Obligations.SweepHasPeriod256 := by
  unfold Obligations.SweepHasPeriod256
  refine ⟨fun s n h0 => ?_, fun s t n h0 hpos hlt hrun hzero => ?_⟩
  · obtain ⟨t, hrun, ht⟩ := execAll_advanceSweep n h0
    exact ⟨t, hrun, ht.toNat_sweep⟩
  · obtain ⟨u, hrun', hu⟩ := execAll_advanceSweep n h0
    obtain rfl : t = u := Host.Outcome.next.inj (hrun.symm.trans hrun')
    have hn : 0 = n % 256 := by simpa [hzero] using hu.toNat_sweep
    omega

/-- A frame that delivers one colour everywhere is the uniform frame of that colour. -/
theorem Delivers.eq_fillBank {f : Frame} {fps : Fps} {v : Colour} (h : Delivers f fps fun _ _ => v) :
    f = ⟨fps, fillBank v⟩ := by
  obtain ⟨rate, cells⟩ := f
  obtain ⟨rfl, hcells⟩ := h
  have hbank : cells = fillBank v := bank_ext fun k => by
    rw [entry_fillBank, ← idx_rowOf_colOf k]
    exact hcells (rowOf k) (colOf k)
  rw [hbank]

theorem exec_updateSweep_of_takesFrame {s : State} (h : s.nextSink = .takesFrame) :
    ∃ t, exec .updateSweep s = .next t ∧ t.sweep = s.sweep + 1 ∧ t.sinkIn = s.sinkIn.tail ∧
      t.frames = s.frames ++ [⟨2, fillBank (interp Config.huePalette s.sweep)⟩] := by
  obtain ⟨m, f, -, hf, hexec⟩ := updateSweepResult s h
  exact ⟨_, hexec, rfl, rfl, by rw [hf.eq_fillBank]⟩

/-- The frames of R235 in their order, the first n of them. -/
def sweepFrames (n : Nat) : List Frame :=
  (List.range n).map fun m => ⟨2, fillBank (interp Config.huePalette (BitVec.ofNat 8 (m % 256)))⟩

theorem sweepFrames_succ (n : Nat) :
    sweepFrames (n + 1) = sweepFrames n ++ [⟨2, fillBank (interp Config.huePalette (BitVec.ofNat 8 (n % 256)))⟩] := by
  rw [sweepFrames, List.range_succ, List.map_append, List.map_singleton, sweepFrames]

/-- The state `t` is n updates of Palette-Sweep after `s`: the counter is that of n, no sink reply is listed, and the
history has gained the first n frames of R235. -/
structure State.SweptTo (s : State) (n : Nat) (t : State) : Prop where
  counter : t.SweepIs n
  sink : t.sinkIn = []
  frames : t.frames = s.frames ++ sweepFrames n

theorem sweptTo_zero {s : State} (h : s.sweep = 0) (hsink : s.sinkIn = []) : s.SweptTo 0 s where
  counter := h
  sink := hsink
  frames := (List.append_nil s.frames).symm

theorem State.SweptTo.update {s t : State} {n : Nat} (ht : s.SweptTo n t) :
    ∃ u, exec .updateSweep t = .next u ∧ s.SweptTo (n + 1) u := by
  have htakes : t.nextSink = .takesFrame := by simp [State.nextSink, ht.sink]
  have hcounter : t.sweep = BitVec.ofNat 8 (n % 256) := by
    rw [← ht.counter.toNat_sweep, BitVec.ofNat_toNat, BitVec.setWidth_eq]
  obtain ⟨u, hexec, hsweep, hsink, hframes⟩ := exec_updateSweep_of_takesFrame htakes
  refine ⟨u, hexec, hsweep.trans ht.counter.sweep_add_one, ?_, ?_⟩
  · rw [hsink, ht.sink, List.tail_nil]
  · rw [hframes, ht.frames, hcounter, sweepFrames_succ, List.append_assoc]

/-- Settles O56: each update adds the next frame of R235 and leaves the sink with no reply listed. -/
theorem sweepFramesCycleThroughPalette : Obligations.SweepFramesCycleThroughPalette := by
  unfold Obligations.SweepFramesCycleThroughPalette
  intro s n h0 hsink
  obtain ⟨t, hrun, hswept⟩ := execAll_replicate_induction (n := n) (P := s.SweptTo) (sweptTo_zero h0 hsink)
    fun _ _ _ hu => hu.update
  exact ⟨t, hrun, hswept.frames⟩

end Sys2Proof.Machine
end

section
/-! Runs of any machine, cut in two. -/

namespace Sys2Proof.Machine

section
variable {M : Host.Core} {s t : M.State}

theorem run_succ_of_next (n : Nat) (h : M.step s = .next t) : M.run (n + 1) s = M.run n t := by
  rw [Host.Core.run, h]

theorem run_one_of_fault {r : M.Fault} (h : M.step s = .fault r) : M.run 1 s = .fault r := by
  rw [Host.Core.run, h]

/-- Steps that reach a next state, and then more. -/
theorem run_add_of_next {m : Nat} (n : Nat) (h : M.run m s = .next t) : M.run (m + n) s = M.run n t := by
  induction m generalizing s with
  | zero =>
    cases h
    rw [Nat.zero_add]
  | succ m ih =>
    rw [Host.Core.run] at h
    rw [Nat.succ_add, Host.Core.run]
    cases hstep : M.step s with
    | next u =>
      rw [hstep] at h
      exact ih h
    | fault r => simp [hstep] at h
    | refused r => simp [hstep] at h

end

end Sys2Proof.Machine
end

section
/-! Edges at which the block takes nothing from the host, any number of them: after fault entry and in a stall
(60_exceptions R261, R268, 40_frame_buffer R111). -/

namespace Sys2Proof.Machine

/-- At an edge short of a reset, a block that is not ready holds still (R21). -/
theorem step_of_notReady {s : State} (h : s.hostAct ≠ .resetLow) (hr : s.inReset = false)
    (hready : s.cmdReady = false) : step s = holdStill s := by
  cases ha : s.hostAct with
  | resetLow => exact absurd ha h
  | offer w => exact step_of_offer_notReady ha hr hready
  | idle => exact step_of_idle ha hr

/-- A block that waits on no device has a step, past the host's last action too. -/
theorem holdStill_of_wait_none {s : State} (h : s.wait = .none) : holdStill s = .next s.popHost := by
  cases hhost : s.host with
  | nil =>
    have hsame : s.popHost = s := by rw [State.popHost, hhost, List.tail_nil, ← hhost]
    simp [holdStill, hhost, h, hsame]
  | cons a rest => exact holdStill_cons hhost

/-- Past the host's last action, a block that requests a draw is stuck (R268). -/
theorem holdStill_of_rngReq {s : State} (hhost : s.host = []) (hreq : s.rngReq = true) :
    holdStill s = .fault .stuckOnRandomSource := by
  cases hw : s.wait with
  | draw lo hi => simp [holdStill, hhost, hw]
  | none | beat fps k => simp [State.rngReq, hw] at hreq

/-- Past the host's last action, a block that waits on a device and requests no draw is stuck at a beat (R111, R268). -/
theorem holdStill_of_not_rngReq {s : State} (hhost : s.host = []) (hw : s.wait ≠ .none) (hreq : s.rngReq = false) :
    holdStill s = .fault .stuckOnDisplaySink := by
  cases hwait : s.wait with
  | none => exact absurd hwait hw
  | draw lo hi => simp [State.rngReq, hwait] at hreq
  | beat fps k => simp [holdStill, hhost, hwait]

theorem hostAct_ne_resetLow {s : State} (h : ∀ a ∈ s.host, a ≠ .resetLow) : s.hostAct ≠ .resetLow := by
  unfold State.hostAct
  cases hhost : s.host with
  | nil => simp
  | cons a rest => exact h a (by simp [hhost])

/-- However long the host goes on short of a reset, a block that is not ready only takes the host's actions; past the last
of them it must wait on no device. -/
theorem run_of_notReady {s : State} {n : Nat} (hr : s.inReset = false) (hready : s.cmdReady = false)
    (hhost : ∀ a ∈ s.host, a ≠ .resetLow) (hn : s.wait = .none ∨ n ≤ s.host.length) :
    core.run n s = .next { s with host := s.host.drop n } := by
  induction n generalizing s with
  | zero => rfl
  | succ n ih =>
    have hstill : holdStill s = .next s.popHost := by
      rcases hn with hw | hn
      · exact holdStill_of_wait_none hw
      · obtain ⟨a, rest, hcons⟩ := List.exists_cons_of_length_pos (Nat.lt_of_lt_of_le n.succ_pos hn)
        exact holdStill_cons hcons
    have hstep := (step_of_notReady (hostAct_ne_resetLow hhost) hr hready).trans hstill
    have hrest : ∀ a ∈ s.popHost.host, a ≠ .resetLow := fun a ha => hhost a (List.mem_of_mem_tail ha)
    have hlength : s.popHost.wait = .none ∨ n ≤ s.popHost.host.length :=
      hn.imp_right fun hn => by rw [popHost_host, List.length_tail]; omega
    calc core.run (n + 1) s
        = core.run n s.popHost := run_succ_of_next (M := core) n hstep
      _ = .next { s with host := s.host.tail.drop n } := ih hr hready hrest hlength
      _ = .next { s with host := s.host.drop (n + 1) } := by rw [List.drop_tail]

/-- Settles O7: a faulted block is not ready and waits on no device, so every edge only takes the host's action. -/
theorem faultHoldsUntilReset : Obligations.FaultHoldsUntilReset := by
  unfold Obligations.FaultHoldsUntilReset
  intro s hf hw hr hhost n
  have hready : s.cmdReady = false := by simp [State.cmdReady, hf]
  exact ⟨_, run_of_notReady hr hready hhost (.inl hw), rfl, hready, rfl, rfl, rfl, hf⟩

/-- Settles O16: a stalled block is busy, so it takes the host's actions to the last; there it has no step. -/
theorem stallEndsOnlyByReset : Obligations.StallEndsOnlyByReset := by
  unfold Obligations.StallEndsOnlyByReset
  intro s hb hw hr hhost
  have hready : s.cmdReady = false := by simp [State.cmdReady, hb]
  have hrun (n : Nat) (hn : n ≤ s.host.length) := run_of_notReady hr hready hhost (.inr hn)
  have hlast {r : Fault} (h : holdStill { s with host := [] } = .fault r) :
      core.run (s.host.length + 1) s = .fault r := by
    have hend := hrun _ le_rfl
    rw [List.drop_length] at hend
    have hstill := step_of_notReady (s := { s with host := [] }) (hostAct_ne_resetLow (by simp)) hr hready
    exact (run_add_of_next (M := core) 1 hend).trans (run_one_of_fault (M := core) (hstill.trans h))
  exact ⟨hrun, fun hreq => hlast (holdStill_of_rngReq rfl hreq),
    fun hreq => hlast (holdStill_of_not_rngReq rfl hw hreq)⟩

end Sys2Proof.Machine
end

section
/-! Fault entry, and UNDEF_READ: where it is raised, and that no UPDATE raises it (60_exceptions R252, R260). -/

namespace Sys2Proof.Machine

theorem extractLsb'_one_eq_ofBool {w : Nat} (x : BitVec w) (i : Nat) :
    x.extractLsb' i 1 = BitVec.ofBool (x.getLsbD i) := by
  ext j hj
  obtain rfl : j = 0 := by omega
  simp

/-- Settles O12: the fields are those fault entry writes; STATUS is read by its layout. -/
theorem faultEntryWritesOnlyFaultState : Obligations.FaultEntryWritesOnlyFaultState := by
  unfold Obligations.FaultEntryWritesOnlyFaultState
  intro code s
  obtain ⟨hbusy, hfault, hcode, -, -⟩ := statusLayout (faultEntry code s)
  refine ⟨rfl, rfl, rfl, rfl, rfl, ?_, hcode, ?_⟩
  · rw [extractLsb'_one_eq_ofBool, hfault]
    rfl
  · rw [extractLsb'_one_eq_ofBool, hbusy]
    rfl

/-- GET of a cell not written raises UNDEF_READ before CREG is written (R105). -/
theorem exec_get_of_not_valid {s : State} {row col : BitVec 4} (h : col.toNat < 14)
    (hvalid : Memory.valid s.fb (fieldIndex row col) = false) :
    exec (.get row col) s = .next (faultEntry .undefRead s) := by
  have hread : Memory.read s.fb (fieldIndex row col) = none := by simpa [Memory.valid] using hvalid
  have hcell : getCell (fieldIndex row col) s = .halt (faultEntry .undefRead s) := by rw [getCell, hread]
  exact exec_of_halt ((atCell_of_legal getCell s h).trans hcell)

/-- A frame transfer of a buffer not all valid raises UNDEF_READ before its first beat (R112). -/
theorem present_of_not_valid (fps : Fps) {s : State} (h : s.fbAllValid = false) :
    present fps s = .halt (faultEntry .undefRead s) := by
  simp [present, h]

/-- The fault code is not UNDEF_READ. -/
def State.NoUndefRead (s : State) : Prop := s.faultCode ≠ .undefRead

/-- A part of a command that raises no UNDEF_READ, however it ends. -/
def NeverUndefRead (part : State → Flow) : Prop :=
  ∀ s : State, s.NoUndefRead → (part s).Sat State.NoUndefRead State.NoUndefRead

/-- A draw raises no fault but RNG_RANGE (R253). -/
theorem neverUndefRead_withDraw (lo : Byte) (hi : BitVec 9) {rest : Byte → State → Flow}
    (hr : ∀ v, NeverUndefRead (rest v)) : NeverUndefRead fun s => withDraw lo hi s rest :=
  fun s hs => sat_withDraw hs (fun _ => by simp [State.NoUndefRead]) fun v _ => hr v (s.popRng.recordDraw _) hs

theorem neverUndefRead_advanceFire (p : Config.Parameters) : NeverUndefRead (advanceFire p) := by
  have hseed (c : Col) : NeverUndefRead (seedColumn p c) := neverUndefRead_withDraw _ _ fun _ _ ht => ht
  exact fun s hs => Flow.sat_loop hseed cols (s := s.setHeat _) hs

theorem neverUndefRead_advanceRain (p : Config.Parameters) : NeverUndefRead (advanceRain p) := by
  have hattempt : NeverUndefRead attempt :=
    neverUndefRead_withDraw _ _ fun _ => neverUndefRead_withDraw _ _ fun _ _ ht => ht
  exact fun s hs => (Flow.sat_times hattempt _ hs).andThen fun _ ht => ht

theorem neverUndefRead_advanceStar (p : Config.Parameters) : NeverUndefRead (advanceStar p) := by
  have hspawn : NeverUndefRead (spawnStar p) :=
    neverUndefRead_withDraw _ _ fun _ => neverUndefRead_withDraw _ _ fun _ _ ht => ht
  have hafter (v : Byte) : NeverUndefRead fun s => if v = 0 then spawnStar p s else .go s := by
    split
    · exact hspawn
    · exact fun _ ht => ht
  exact fun s hs => neverUndefRead_withDraw _ _ hafter (s.setSint _) hs

theorem neverUndefRead_advanceSweep (p : Config.Parameters) : NeverUndefRead fun s => .go (advanceSweep p s) :=
  fun _ hs => hs

/-- Every cell is written by the time of the transfer, so only the advance could raise UNDEF_READ (R156, R252). -/
theorem sat_update_noUndefRead (p : Config.Parameters) (fps : Fps) {colour : Row → Col → Colour} {render : State → State}
    {advance : State → Flow} (hadvance : NeverUndefRead advance) {s : State}
    (hrender : render s = renderWith colour s) (hs : s.NoUndefRead) :
    (update p fps render advance s).Sat State.NoUndefRead State.NoUndefRead := by
  have hall : (render s).fbAllValid = true := hrender ▸ fbAllValid_renderWith colour s
  have hs' : (render s).NoUndefRead := by
    rw [hrender, State.NoUndefRead, renderWith_faultCode]
    exact hs
  have hpresent : (present fps (render s)).Sat State.NoUndefRead State.NoUndefRead :=
    sat_present (fun h => absurd h (by simp [hall])) (fun _ _ => hs') fun _ => hs'
  exact hpresent.andThen fun t ht => hadvance (pace p fps t) ht

theorem sat_bodyOf_update_noUndefRead {i : Instr} (hi : i ∈ [Instr.updateFire, .updateRain, .updateStar, .updateSweep])
    {s : State} (hs : s.NoUndefRead) : (bodyOf i s).Sat State.NoUndefRead State.NoUndefRead := by
  simp only [List.mem_cons, List.not_mem_nil, or_false] at hi
  rcases hi with rfl | rfl | rfl | rfl
  · exact sat_update_noUndefRead hardware _ (neverUndefRead_advanceFire hardware) (renderFire_eq hardware s) hs
  · exact sat_update_noUndefRead hardware _ (neverUndefRead_advanceRain hardware) (renderRain_eq hardware s) hs
  · exact sat_update_noUndefRead hardware _ (neverUndefRead_advanceStar hardware) (renderStar_eq s) hs
  · exact sat_update_noUndefRead hardware _ (neverUndefRead_advanceSweep hardware) (renderSweep_eq hardware s) hs

/-- Settles O13: GET and the transfer check before they write; an UPDATE's transfer finds every cell written, and its
advance raises RNG_RANGE only. -/
theorem undefReadIsPreciseAndNeverInUpdate : Obligations.UndefReadIsPreciseAndNeverInUpdate := by
  unfold Obligations.UndefReadIsPreciseAndNeverInUpdate
  refine ⟨fun s row col hcol hvalid => exec_get_of_not_valid hcol hvalid, fun s hall => ?_, fun i s t hi ht hs => ?_⟩
  · exact ⟨exec_of_halt (i := .presentFire) (present_of_not_valid _ hall),
      exec_of_halt (i := .presentRain) (present_of_not_valid _ hall),
      exec_of_halt (i := .presentStar) (present_of_not_valid _ hall),
      exec_of_halt (i := .presentSweep) (present_of_not_valid _ hall)⟩
  · rw [exec_eq_bodyOf] at ht
    cases ht
    exact (sat_bodyOf_update_noUndefRead hi hs).final (R := State.NoUndefRead) (fun _ h => h) fun _ h => h

end Sys2Proof.Machine
end

section
/-! A draw that is never answered, in each command that draws: what was done before it stands (60_exceptions R268,
43_fire R173, 44_rain R192, R194, 45_starfield R213). -/

namespace Sys2Proof.Machine

/-- After n draws, a draw that is never answered stalls on its request (R268). -/
theorem withDraw_of_never {s : State} {n : Nat} {made : List Draw} {lo : Byte} {hi : BitVec 9}
    (rest : Byte → State → Flow) (hlen : made.length = n) (h : s.replyAt n = .never) :
    withDraw lo hi (s.withDraws n made) rest = .halt (s.waitingForDraw (n + 1) made lo hi) := by
  rw [withDraw_never rest ((replyAt_withDraws hlen 0).trans h)]
  simp [stall, State.popRng, State.withDraws, State.waitingForDraw]

/-- A loop that draws for each element stalls at the first draw that is never answered, the field folded over the elements
before. -/
theorem FieldLens.loop_of_never {β α : Type} (F : FieldLens β) {lo : Byte} {hi : BitVec 9} (f : α → Byte → β → β)
    (l : List α) (a : α) (l' : List α) {s : State} (h : ∀ j < l.length, s.answered j lo hi = true)
    (hr : s.replyAt l.length = .never) :
    Flow.loop (F.part lo hi f) (l ++ a :: l') s = .halt (State.waitingForDraw (F.set s (F.folded f s l 0 (F.get s)))
      (l.length + 1) (s.drawsMade l.length lo hi) lo hi) := by
  rw [F.loop_waits lo hi f l a l' s h hr, ← F.set_drawn]
  generalize F.folded f s l 0 (F.get s) = b
  have hmade : (F.set s b).drawsMade l.length lo hi = s.drawsMade l.length lo hi := by
    simp only [State.drawsMade, answerAt_congr (F.set_rngIn s b) (F.set_draws s b)]
  simp [stall, State.popRng, State.drawn, State.waitingForDraw, hmade]

/-- Column n's draw never answered, ADVANCE.FIRE stalls on it, that column and those after it not seeded. -/
theorem advanceFire_of_never {s : State} {n : Col} {h : Bank Byte} (hh : FireSeededTo s n.val h)
    (hans : ∀ j < n.val, s.answered j 0x20 0x90 = true) (hreply : s.replyAt n.val = .never) :
    advanceFire hardware s = .halt
      (State.waitingForDraw { s with heat := h } (n.val + 1) (s.drawsMade n.val 0x20 0x90) 0x20 0x90) := by
  have hlen : (cols.take n.val).length = n.val := by simp
  have hloop := heatField.loop_of_never (lo := 0x20) (hi := 0x90) (fun c v b => put b (idx 0 c) v) (cols.take n.val) n
    (cols.drop (n.val + 1)) (s := s.setHeat (riseSweep hardware s.heat)) (by rw [hlen]; exact hans)
    (by rw [hlen]; exact hreply)
  rw [← cols_eq_append, folded_setHeat, ← fireSeededTo_iff.mp hh, hlen] at hloop
  exact hloop

/-- Cell n's draw never answered, INIT.RAIN stalls on it, that cell and those after it not drawn. -/
theorem initRain_of_never {s : State} {n : Cell} {h : Bank Bool} (hh : HeadsDrawnTo s n.val h)
    (hans : ∀ j < n.val, s.answered j 0 8 = true) (hreply : s.replyAt n.val = .never) :
    initRain hardware s = .halt
      (State.waitingForDraw { s with head := h, rint := fillBank 0 } (n.val + 1) (s.drawsMade n.val 0 8) 0 8) := by
  have hlen : (linear.take n.val).length = n.val := by simp
  have hloop := headField.loop_of_never (lo := 0) (hi := 8) (fun k v b => put b k (decide (v = 0))) (linear.take n.val) n
    (linear.drop (n.val + 1)) (s := s.setRint (fillBank 0)) (by rw [hlen]; exact hans) (by rw [hlen]; exact hreply)
  rw [← linear_eq_append, folded_setRint, ← headsDrawnTo_iff.mp hh, hlen] at hloop
  exact hloop

theorem withDraw_moved_of_never {s : State} {m n : Nat} (rest : Byte → State → Flow) (h : s.replyAt n = .never) :
    withDraw 0 224 (s.moved m n) rest = .halt
      (State.waitingForDraw { s with head := s.movedHeads m } (n + 1) (s.drawsMade n 0 224) 0 224) :=
  withDraw_of_never rest (drawsMade_length s n 0 224) h

/-- An attempt stalls at the first of its two draws that is never answered, before its move. -/
theorem attempt_of_never {s : State} {m n : Nat} (hn : n / 2 = m) (hans : ∀ j < n, s.answered j 0 224 = true)
    (hreply : s.replyAt n = .never) :
    attempt (s.moved m (2 * m)) = .halt
      (State.waitingForDraw { s with head := s.movedHeads m } (n + 1) (s.drawsMade n 0 224) 0 224) := by
  obtain rfl | rfl : n = 2 * m ∨ n = 2 * m + 1 := by omega
  · rw [attempt, withDraw_moved_of_never _ hreply]
  · rw [attempt, withDraw_moved _ (hans _ (Nat.lt_succ_self _)), withDraw_moved_of_never _ hreply]

/-- An ADVANCE.RAIN ends where one of its attempts does. -/
theorem advanceRain_of_attempt_halt {s t : State} {m : Nat} (hm : m < 24)
    (hans : ∀ j < 2 * m, s.answered j 0 224 = true) (h : attempt (s.moved m (2 * m)) = .halt t) :
    advanceRain hardware s = .halt t := by
  have hsplit : hardware.rainAttempts = m + (1 + (23 - m)) := by
    change 24 = _
    omega
  rw [advanceRain, hsplit, Flow.times_add, times_attempt hans, Flow.andThen_go, Flow.times_add, Flow.times_one, h,
    Flow.andThen_halt, Flow.andThen_halt]

/-- Draw n never answered, ADVANCE.RAIN stalls on it with the attempts before that draw's done. -/
theorem advanceRain_of_never {s : State} {n : Nat} (hn : n < 48) (hans : ∀ j < n, s.answered j 0 224 = true)
    (hreply : s.replyAt n = .never) :
    advanceRain hardware s = .halt
      (State.waitingForDraw { s with head := s.movedHeads (n / 2) } (n + 1) (s.drawsMade n 0 224) 0 224) :=
  advanceRain_of_attempt_halt (by omega) (fun j hj => hans j (by omega)) (attempt_of_never rfl hans hreply)

/-- Draw n never answered, ADVANCE.STAR stalls on it with the fade run and no cell spawned. -/
theorem advanceStar_of_never {s : State} {n : Fin 3} (hn : s.starReaches n) (hreply : s.replyAt n.val = .never) :
    advanceStar hardware s = .halt
      (State.waitingForDraw { s with sint := fadeStar hardware s.sint } (n.val + 1) (s.starMade n.val)
        (starBounds n).1 (starBounds n).2) := by
  rw [advanceStar_of_reaches hn]
  exact withDraw_of_never (s := s.setSint _) _ (starMade_length s n) hreply

end Sys2Proof.Machine
end

section
/-! The reset sequence: what its one command that draws, INIT.RAIN, makes of it (70_reset R280). -/

namespace Sys2Proof.Machine

/-- The state in which the reset sequence comes to INIT.RAIN: its first writes made and Fire constructed (R280). -/
def State.sequenceFire (s : State) : State := initFire hardware (beginSequence s.popHost)

section
variable {s t : State} (hlow : s.hostAct ≠ .resetLow) (hr : s.inReset = true)
include hlow hr

/-- INIT.RAIN run to its end, the sequence constructs the other two effects and completes. -/
theorem step_of_sequence_go (h : initRain hardware s.sequenceFire = .go t) :
    step s = .next (complete (initSweep hardware (initStar t))) := by
  have hbody : sequenceBody hardware s.popHost = .go (initSweep hardware (initStar t)) := by
    rw [sequenceBody, ← State.sequenceFire, h, Flow.andThen_go]
  rw [step_of_inReset hlow hr, resetSequence, hbody, Flow.final_go]

/-- INIT.RAIN ended by a draw, the sequence ends there. -/
theorem step_of_sequence_halt (h : initRain hardware s.sequenceFire = .halt t) : step s = .next t := by
  have hbody : sequenceBody hardware s.popHost = .halt t := by
    rw [sequenceBody, ← State.sequenceFire, h, Flow.andThen_halt]
  rw [step_of_inReset hlow hr, resetSequence, hbody, Flow.final_halt]

end

/-- Settles O10: INIT.RAIN makes its 224 draws, and the parts after it draw nothing. -/
theorem resetSequenceConstructsEffects : Obligations.ResetSequenceConstructsEffects := by
  unfold Obligations.ResetSequenceConstructsEffects
  intro s hr hlow hans
  have hh := headsDrawnTo_iff.mpr (rfl : s.drawnHeads 224 = _)
  have hhead (k : Cell) : entry (s.drawnHeads 224) k = true ↔ s.answerAt k.val = 0 := by
    rw [hh k, if_pos k.isLt, decide_eq_true_iff]
  exact ⟨_, hhead, step_of_sequence_go hlow hr (initRain_of_answered (s := s.sequenceFire) hh hans)⟩

/-- Settles O11: INIT.RAIN raises RNG_RANGE at cell n, and no command word is held for FAULT_CMD. -/
theorem resetSequenceFaultsOnBadDraw : Obligations.ResetSequenceFaultsOnBadDraw := by
  unfold Obligations.ResetSequenceFaultsOnBadDraw
  intro s n v hr hlow hans hreply hv
  have hout : inRange 0 8 v = false := inRange_eq_false (.inr hv)
  have hh := headsDrawnTo_iff.mpr (rfl : s.drawnHeads n.val = _)
  have hbody := initRain_of_outOfRange (s := s.sequenceFire) hh hans hreply hout
  exact ⟨_, step_of_sequence_halt hlow hr hbody, rfl, rfl, rfl, rfl, rfl, rfl, rfl, hh⟩

end Sys2Proof.Machine
end

section
/-! A draw that is never answered, wherever it is made (60_exceptions R268, 42_effect_control R156, 70_reset R280). -/

namespace Sys2Proof.Machine

/-- Where the sink takes the frame, an UPDATE whose advance ends early leaves the state the advance ends in (R156). -/
theorem exec_update_of_halt {i : Instr} {s : State} {fps : Fps} {colour : Row → Col → Colour} {render : State → State}
    {advance : State → Flow} {last : State → State} (hbody : bodyOf i s = update hardware fps render advance s)
    (hrender : render s = renderWith colour s) (hsink : s.nextSink = .takesFrame)
    (h : ∀ u, Presented s u fps colour → advance u = .halt (last u)) :
    ∃ u, Presented s u fps colour ∧ exec i s = .next (last u) := by
  obtain ⟨u, hu, hupdate⟩ := update_presents hardware fps advance hrender hsink
  exact ⟨u, hu, exec_of_halt ((hbody.trans hupdate).trans (h u hu))⟩

/-- Settles O15: the stall is on the draw the command comes to; an UPDATE's advance starts with the same effect state and
the same replies to come. -/
theorem silentSourceLeavesBlockBusy : Obligations.SilentSourceLeavesBlockBusy := by
  unfold Obligations.SilentSourceLeavesBlockBusy
  refine ⟨fun s n made lo hi => ⟨rfl, rfl, rfl, rfl, rfl, rfl, rfl, rfl⟩, fun s n hans hreply => ?fire,
    fun s n hn hans hreply => ?rain, fun s n hans hreply => ?initRain, fun s n hn hreply => ?star,
    fun s n hr hlow hans hreply => ?reset⟩
  case fire =>
    have hh := fireSeededTo_iff.mpr (rfl : s.seededHeat n.val = _)
    refine ⟨_, hh, exec_of_halt (i := .advanceFire) (advanceFire_of_never hh hans hreply), fun hsink => ?_⟩
    refine exec_update_of_halt (i := .updateFire) rfl (renderFire_eq hardware s) hsink ?_
    rintro u ⟨m, f, -, -, rfl⟩
    exact advanceFire_of_never hh hans hreply
  case rain =>
    refine ⟨exec_of_halt (i := .advanceRain) (advanceRain_of_never hn hans hreply), fun hsink => ?_⟩
    refine exec_update_of_halt (i := .updateRain) rfl (renderRain_eq hardware s) hsink ?_
    rintro u ⟨m, f, -, -, rfl⟩
    exact advanceRain_of_never hn hans hreply
  case initRain =>
    have hh := headsDrawnTo_iff.mpr (rfl : s.drawnHeads n.val = _)
    exact ⟨_, hh, exec_of_halt (i := .initRain) (initRain_of_never hh hans hreply)⟩
  case star =>
    refine ⟨_, starFaded_iff.mpr rfl, exec_of_halt (i := .advanceStar) (advanceStar_of_never hn hreply), fun hsink => ?_⟩
    refine exec_update_of_halt (i := .updateStar) rfl (renderStar_eq s) hsink ?_
    rintro u ⟨m, f, -, -, rfl⟩
    exact advanceStar_of_never hn hreply
  case reset =>
    have hh := headsDrawnTo_iff.mpr (rfl : s.drawnHeads n.val = _)
    exact ⟨_, hh, step_of_sequence_halt hlow hr (initRain_of_never (s := s.sequenceFire) hh hans hreply)⟩

end Sys2Proof.Machine
end
